-- ==== Sys2Proof/Word.lean ====
section
/-! DEFINITION. The bit-vector types the spec gives values of a fixed width, and the slot word: a pair of masks (R6, R8, R61). -/

namespace Sys2Proof

/-- An 8-bit value: the operand forms `v8` and `b`, a handle, and the registers `CURSOR`, `CNT`, `CMP` (R10, R62). -/
abbrev Byte := BitVec 8

/-- A 16-bit value: the operand form `t16` and the widest software-timer count (R5, R62). -/
abbrev Ticks := BitVec 16

/-- One command word of the command port, or one word of a trace (R60, R67). -/
abbrev CmdWord := BitVec 32

/-- A mask: bit `i` stands for port line `i`, line 0 to line 5 (R6). -/
abbrev Mask := BitVec 6

/-- A slot word: a Segment definition or the content of a buffer slot, the pair of 6-bit masks `(active, anode)`.
The pair is one value, so a read or a write of a slot moves both masks together (R11, R42, R61). -/
structure Slot where
  active : Mask
  anode : Mask
  deriving DecidableEq, Repr

/-- `ZERO`, the slot word of "off" (R8). -/
def Slot.zero : Slot := ⟨0, 0⟩

end Sys2Proof
end

