-- ==== Sys2Proof/Config.lean ====
section
/-! DEFINITION. The implementation parameters of R5: the shape of the ROM and of the parameter record, the numeric defaults the
spec names, and the one parameter that has none (`SWT_PERIOD_MS`). What a well-formed image is and the reference image stand in
Sys2Proof/Machine/Rom.lean. -/

namespace Sys2Proof

/-- The ROM: the Segment Table `SEG` and one glyph table per area, a table being its list of rows (R22, R24 to R27). -/
structure Rom where
  seg : List Slot
  tens : List (List Slot)
  units : List (List Slot)
  power : List (List Slot)
  percent : List (List Slot)
  fill : List (List Slot)
  droplet : List (List Slot)
  deriving DecidableEq, Repr

/-- The parameters of R5 that a machine is built with (log 1). `N_LINES` and `N_SLOTS` are constants of the block and
stand in the types (`Mask`, `Vector Slot 25`); `SWT_PERIOD_MS` is `Config.swtPeriodMs`. -/
structure Params where
  /-- `TIMER_MAX`, the top value of `CNT` and `CMP`, 1..255. -/
  timerMax : Nat
  /-- `SEG` and the six glyph tables. -/
  rom : Rom
  /-- `TENS_ROWS`, at least 13. -/
  tensRows : Nat
  /-- `UNITS_ROWS`, at least 12. -/
  unitsRows : Nat
  /-- `FILL_ROWS`, the modulus of `FILL`. -/
  fillRows : Nat
  /-- `DROPLET_ROWS`, the modulus of `DROP`. -/
  dropletRows : Nat
  /-- `INIT_BRIGHT_PCT`, 0..255: the percentage `INIT` applies. -/
  initBrightPct : Nat
  /-- `INIT_RUN`: whether `INIT` starts the scan-timer clock. -/
  initRun : Bool
  /-- `MAX_SERVICE_LATENCY` in timer clocks (R105); read by `Safety.servicedInTime` alone (log 8). -/
  maxServiceLatency : Nat
  /-- `N_SWT`, the number of software timers, 0..256. -/
  nSwt : Nat
  /-- `SWT_W`, the width of a software-timer count, 1..16. -/
  swtW : Nat
  deriving DecidableEq, Repr

/-- The default of `TIMER_MAX` (R5, D2). -/
def Config.defaultTimerMax : Nat := 255

/-- The default of `TENS_ROWS` (R5, D7). -/
def Config.defaultTensRows : Nat := 13

/-- The default of `UNITS_ROWS` (R5, D7). -/
def Config.defaultUnitsRows : Nat := 12

/-- The default of `FILL_ROWS` (R5, D8). -/
def Config.defaultFillRows : Nat := 6

/-- The default of `DROPLET_ROWS` (R5, D8). -/
def Config.defaultDropletRows : Nat := 7

/-- The default of `INIT_BRIGHT_PCT` (R5, D14). -/
def Config.defaultInitBrightPct : Nat := 100

/-- The default of `INIT_RUN` (R5, D14). -/
def Config.defaultInitRun : Bool := false

/-- The default of `MAX_SERVICE_LATENCY` (R5, D17). -/
def Config.defaultMaxServiceLatency : Nat := 0

/-- The default of `N_SWT` (R5, D20). -/
def Config.defaultNSwt : Nat := 2

/-- The default of `SWT_W` (R5, D20). -/
def Config.defaultSwtW : Nat := 16

/-- What `SWT_PERIOD_MS` exceeds 1 by. The spec leaves the period open and gives no default (R5, D22), so it is an
uninterpreted constant: nothing can be proved of its value (log 12). -/
opaque Config.swtPeriodMsLessOne : Nat

/-- `SWT_PERIOD_MS`, the period of the low-rate interrupt in milliseconds, at least 1 (R5, R144; log 12). -/
def Config.swtPeriodMs : Nat := Config.swtPeriodMsLessOne + 1

end Sys2Proof
end

