-- ==== Sys2Proof/Syntax.lean ====
section
/-! DEFINITION. The instructions: one constructor per row of spec/opcode_table.json (R63). A constructor keeps its operand
fields as the word carries them; the operand forms give them their meaning (Sys2Proof/Machine/Operands.lean). -/

namespace Sys2Proof

/-- The operations of R63: fourteen host commands, then the four event labels of R67. -/
inductive Instr where
  /-- `INIT`, R120. -/
  | init
  /-- `DRVON`, R124. -/
  | drvon
  /-- `DRVOFF`, R125. -/
  | drvoff
  /-- `BRIGHT pct`, form `v8`, R123. -/
  | bright (pct : Byte)
  /-- `CLEAR`, R81. -/
  | clear
  /-- `NUM value`, form `v8`, R82. -/
  | num (value : Byte)
  /-- `NUMCLR`, R84. -/
  | numclr
  /-- `POWER b`, form `b`: the byte as it stands in the word, R85 (log 22). -/
  | power (b : Byte)
  /-- `PCT b`, form `b`, R86 (log 22). -/
  | pct (b : Byte)
  /-- `DROP level`, form `v8`, R88. -/
  | drop (level : Byte)
  /-- `FILL level`, form `v8`, R87. -/
  | fill (level : Byte)
  /-- `SWT_SET h, ticks`, forms `h` and `t16`, R141. -/
  | swtSet (h : Byte) (ticks : Ticks)
  /-- `SWT_IST h`, form `h`, R142. -/
  | swtIst (h : Byte)
  /-- `SWT_ACT h, b`, forms `h` and `b`, R143 (log 22). -/
  | swtAct (h : Byte) (b : Byte)
  /-- `TCLK`, one scan-timer clock, R100. -/
  | tclk
  /-- `SCAN`, the scan-tick service, R102. -/
  | scan
  /-- `BLANK`, the blanking service, R103. -/
  | blank
  /-- `SWT_TICK`, the low-rate service, R145. -/
  | swtTick
  deriving DecidableEq, Repr

/-- The four event labels: steps the hardware takes by itself, reserved on the command port (R67). -/
def Instr.isLabel : Instr → Bool
  | .tclk | .scan | .blank | .swtTick => true
  | .init | .drvon | .drvoff | .bright _ | .clear | .num _ | .numclr | .power _ | .pct _ | .drop _ | .fill _
  | .swtSet _ _ | .swtIst _ | .swtAct _ _ => false

/-- The seven content commands, the only writers of the display buffer (R12, R80). -/
def Instr.isContent : Instr → Bool
  | .clear | .num _ | .numclr | .power _ | .pct _ | .drop _ | .fill _ => true
  | .init | .drvon | .drvoff | .bright _ | .swtSet _ _ | .swtIst _ | .swtAct _ _
  | .tclk | .scan | .blank | .swtTick => false

/-- The operations of the companion unit (R3, R140). -/
def Instr.isTimer : Instr → Bool
  | .swtSet _ _ | .swtIst _ | .swtAct _ _ | .swtTick => true
  | .init | .drvon | .drvoff | .bright _ | .clear | .num _ | .numclr | .power _ | .pct _ | .drop _ | .fill _
  | .tclk | .scan | .blank => false

end Sys2Proof
end

