-- ==== Sys2Proof/WellFormed.lean ====
section
/-! DEFINITION. Which instructions a machine with `N_SWT` software timers has: the one condition of R68 that the types of the
operand fields do not carry. Every operand value of every command is legal (R69). -/

namespace Sys2Proof

/-- The handle of a timer command is below `N_SWT` (R62 form `h`, R68); nothing else can be ill-formed (R69). -/
def Instr.wellFormed (nSwt : Nat) : Instr → Bool
  | .swtSet h _ | .swtIst h | .swtAct h _ => decide (h.toNat < nSwt)
  | .init | .drvon | .drvoff | .bright _ | .clear | .num _ | .numclr | .power _ | .pct _ | .drop _ | .fill _
  | .tclk | .scan | .blank | .swtTick => true

end Sys2Proof
end

