-- ==== Sys2Proof/Decode.lean ====
section
/-! DEFINITION. The command word: its fields (R60), the decoder (R63, R68, R70), the encoder written from the same table, and the
table's match and mask columns (R63). -/

namespace Sys2Proof

/-! ## Fields (R60) -/

/-- `OP`, bits 31:24. -/
def opOf (w : CmdWord) : Byte := w.extractLsb' 24 8

/-- `H`, bits 23:16. -/
def hOf (w : CmdWord) : Byte := w.extractLsb' 16 8

/-- `ARG`, bits 15:0. -/
def argOf (w : CmdWord) : Ticks := w.extractLsb' 0 16

/-- `ARG[15:8]`. -/
def argHi (w : CmdWord) : Byte := w.extractLsb' 8 8

/-- `ARG[7:0]`. -/
def argLo (w : CmdWord) : Byte := w.extractLsb' 0 8

/-- A command word from its fields: `{OP, H, ARG}` (R60). -/
def cmdWord (op h : Byte) (arg : Ticks) : CmdWord := op ++ h ++ arg

/-- `ARG` of a `v8` or `b` command: the byte in `ARG[7:0]`, `ARG[15:8]` zero (R62). -/
def argOfByte (b : Byte) : Ticks := (0 : Byte) ++ b

/-! ## The decoder -/

/-- A word of a no-operand operation: `H` and `ARG` must be 0 (R62, R68). -/
def takeNone (w : CmdWord) (i : Instr) : Option Instr :=
  if hOf w = 0 ∧ argOf w = 0 then some i else none

/-- A word of a `v8` or `b` operation without a handle: `H` and `ARG[15:8]` must be 0 (R62, R68). -/
def takeByte (w : CmdWord) (f : Byte → Instr) : Option Instr :=
  if hOf w = 0 ∧ argHi w = 0 then some (f (argLo w)) else none

/-- `SWT_SET`: a handle below `N_SWT` and any 16-bit count (R62, R68, R69). -/
def takeHandleTicks (nSwt : Nat) (w : CmdWord) (f : Byte → Ticks → Instr) : Option Instr :=
  if (hOf w).toNat < nSwt then some (f (hOf w) (argOf w)) else none

/-- `SWT_IST`: a handle below `N_SWT`, `ARG` must be 0 (R62, R68). -/
def takeHandle (nSwt : Nat) (w : CmdWord) (f : Byte → Instr) : Option Instr :=
  if (hOf w).toNat < nSwt ∧ argOf w = 0 then some (f (hOf w)) else none

/-- `SWT_ACT`: a handle below `N_SWT`, `ARG[15:8]` must be 0 (R62, R68). -/
def takeHandleByte (nSwt : Nat) (w : CmdWord) (f : Byte → Byte → Instr) : Option Instr :=
  if (hOf w).toNat < nSwt ∧ argHi w = 0 then some (f (hOf w) (argLo w)) else none

/-- The decoder of a machine with `nSwt` software timers: check R68, else dispatch on `OP` (R70). It reads the event labels
too, as a trace does (R67); that the command port refuses them is the port's rule (`presentCommand`). -/
def decode (nSwt : Nat) (w : CmdWord) : Option Instr :=
  match (opOf w).toNat with
  | 0x01 => takeNone w .init
  | 0x02 => takeNone w .drvon
  | 0x03 => takeNone w .drvoff
  | 0x04 => takeByte w .bright
  | 0x10 => takeNone w .clear
  | 0x11 => takeByte w .num
  | 0x12 => takeNone w .numclr
  | 0x13 => takeByte w .power
  | 0x14 => takeByte w .pct
  | 0x15 => takeByte w .drop
  | 0x16 => takeByte w .fill
  | 0x20 => takeHandleTicks nSwt w .swtSet
  | 0x21 => takeHandle nSwt w .swtIst
  | 0x22 => takeHandleByte nSwt w .swtAct
  | 0xE0 => takeNone w .tclk
  | 0xE1 => takeNone w .scan
  | 0xE2 => takeNone w .blank
  | 0xE3 => takeNone w .swtTick
  | _ => none

/-- What the decoder of the default machine reads from an instruction whose bits are `w`, numbered as the opcode table numbers
them; bits from `nbits` on are 0, and a number of more than 32 bits is no word of this block (R70; log 24). -/
def decodeTableWord (nbits w : Nat) : Option Instr :=
  if w % 2 ^ nbits < 2 ^ 32 then decode Config.defaultNSwt (BitVec.ofNat 32 (w % 2 ^ nbits)) else none

/-! ## The encoder -/

/-- The command word of an instruction (R60, R62, R63). -/
def encode : Instr → CmdWord
  | .init => cmdWord 0x01 0 0
  | .drvon => cmdWord 0x02 0 0
  | .drvoff => cmdWord 0x03 0 0
  | .bright pct => cmdWord 0x04 0 (argOfByte pct)
  | .clear => cmdWord 0x10 0 0
  | .num value => cmdWord 0x11 0 (argOfByte value)
  | .numclr => cmdWord 0x12 0 0
  | .power b => cmdWord 0x13 0 (argOfByte b)
  | .pct b => cmdWord 0x14 0 (argOfByte b)
  | .drop level => cmdWord 0x15 0 (argOfByte level)
  | .fill level => cmdWord 0x16 0 (argOfByte level)
  | .swtSet h ticks => cmdWord 0x20 h ticks
  | .swtIst h => cmdWord 0x21 h 0
  | .swtAct h b => cmdWord 0x22 h (argOfByte b)
  | .tclk => cmdWord 0xE0 0 0
  | .scan => cmdWord 0xE1 0 0
  | .blank => cmdWord 0xE2 0 0
  | .swtTick => cmdWord 0xE3 0 0

/-! ## The table's match and mask columns (R63) -/

/-- One row of the table of R63: a word `w` is the operation iff `w & mask == value`. -/
structure OpRow where
  value : CmdWord
  mask : CmdWord
  deriving DecidableEq, Repr

/-- The row of an instruction (R63). -/
def opRow : Instr → OpRow
  | .init => ⟨0x01000000, 0xFFFFFFFF⟩
  | .drvon => ⟨0x02000000, 0xFFFFFFFF⟩
  | .drvoff => ⟨0x03000000, 0xFFFFFFFF⟩
  | .bright _ => ⟨0x04000000, 0xFFFFFF00⟩
  | .clear => ⟨0x10000000, 0xFFFFFFFF⟩
  | .num _ => ⟨0x11000000, 0xFFFFFF00⟩
  | .numclr => ⟨0x12000000, 0xFFFFFFFF⟩
  | .power _ => ⟨0x13000000, 0xFFFFFF00⟩
  | .pct _ => ⟨0x14000000, 0xFFFFFF00⟩
  | .drop _ => ⟨0x15000000, 0xFFFFFF00⟩
  | .fill _ => ⟨0x16000000, 0xFFFFFF00⟩
  | .swtSet _ _ => ⟨0x20000000, 0xFF000000⟩
  | .swtIst _ => ⟨0x21000000, 0xFF00FFFF⟩
  | .swtAct _ _ => ⟨0x22000000, 0xFF00FF00⟩
  | .tclk => ⟨0xE0000000, 0xFFFFFFFF⟩
  | .scan => ⟨0xE1000000, 0xFFFFFFFF⟩
  | .blank => ⟨0xE2000000, 0xFFFFFFFF⟩
  | .swtTick => ⟨0xE3000000, 0xFFFFFFFF⟩

/-- The eighteen rows in the table's order, one instruction of each (R63). -/
def opTable : List OpRow :=
  [Instr.init, .drvon, .drvoff, .bright 0, .clear, .num 0, .numclr, .power 0, .pct 0, .drop 0, .fill 0, .swtSet 0 0,
    .swtIst 0, .swtAct 0 0, .tclk, .scan, .blank, .swtTick].map opRow

end Sys2Proof
end

