-- ==== Sys2Proof/Machine/Operands.lean ====
section
/-! DEFINITION. The arithmetic of R7, the operand forms of R62, and the values commands compute from an operand before they touch
any state: the row choice of `NUM` (R83), the brightness map (R122), the level rows (R87, R88), truncation to `SWT_W` (R141) and
the tick helper (R146). -/

namespace Sys2Proof.Machine

/-- `ceil_div(a, b) = (a + b - 1) / b`, for `b > 0` (R7). -/
def ceilDiv (a b : Nat) : Nat := (a + b - 1) / b

/-- `inc_mod(c, n) = (c + 1) mod n` (R7). -/
def incMod (c n : Nat) : Nat := (c + 1) % n

/-- `dec_sat(c)`: one less, and 0 at 0 (R7). -/
def decSat (c : Ticks) : Ticks := if c = 0 then 0 else c - 1

/-- `A ⊆ B` on masks: `(A & ~B) == 0` (R6). -/
def subset (a b : Mask) : Bool := a &&& ~~~b == 0

/-- `popcount(m)`, the number of 1 bits (R6). -/
def popcount (m : Mask) : Nat := (List.range 6).countP fun i => m.getLsbD i

/-- The slot word as the 16-bit number of R61: `active` in bits 13:8, `anode` in bits 5:0, the other bits 0. -/
def slotToWord (s : Slot) : BitVec 16 := (0 : BitVec 2) ++ s.active ++ (0 : BitVec 2) ++ s.anode

/-- The slot word a 16-bit number of R61 names. -/
def slotOfWord (w : BitVec 16) : Slot := ⟨w.extractLsb' 8 6, w.extractLsb' 0 6⟩

/-- Operand form `b`: false for the byte 0, true for every other (R62). -/
def boolOf (b : Byte) : Bool := b != 0

/-- Operand form `v8`: unsigned, no scaling (R62). -/
def v8 (v : Byte) : Nat := v.toNat

/-- Operand form `h`: the index of a software timer (R62). -/
def handle (h : Byte) : Nat := h.toNat

/-- Operand form `t16` as `SWT_SET` uses it: `ticks mod 2^SWT_W` (R62, R141). -/
def truncTicks (swtW : Nat) (ticks : Ticks) : Ticks := BitVec.ofNat 16 (ticks.toNat % 2 ^ swtW)

/-- `num_rows(v)`: the rows of the tens and the units table that `NUM v` shows (R83). -/
def numRows (v : Byte) : Nat × Nat :=
  if v.getLsbD 7 then (12, (v &&& 0x0F).toNat % 11)
  else if v.toNat > 99 then (11, 11)
  else (if v.toNat / 10 = 0 then 10 else v.toNat / 10, v.toNat % 10)

/-- `level mod ROWS`, the row a level command shows (R87, R88). -/
def levelRow (level : Byte) (rows : Nat) : Nat := level.toNat % rows

/-- The row of a two-row on/off table (R85, R86). -/
def onOffRow (b : Byte) : Nat := if boolOf b then 1 else 0

/-- `bright_map(pct)`: linear with floor division below 100, `TIMER_MAX` from 100 on (R122). -/
def brightMap (timerMax pct : Nat) : Nat := if pct ≥ 100 then timerMax else pct * timerMax / 100

/-- `MS_TO_TICKS(ms, period_ms)`: whole ticks, rounded up; a period of 0 is outside the domain and refused (R146, U15;
log 11). -/
def msToTicks (ms periodMs : Nat) : Option Nat := if periodMs = 0 then none else some (ceilDiv ms periodMs)

end Sys2Proof.Machine
end

