-- ==== Sys2Proof/Machine/Rom.lean ====
section
/-! DEFINITION. The ROM: the area map of the buffer (R11), reading a table (R8, R24), the build-time contract an image must pass (R22,
R24 to R28), the reference image (R37) and the default parameters (R5). -/

namespace Sys2Proof.Machine

/-- The six areas of the display buffer, each with a glyph table of its own (R11, R24). -/
inductive Area where
  | tens | units | power | percent | fill | droplet
  deriving DecidableEq, Repr

/-- The first slot of an area (R11). -/
def Area.base : Area → Nat
  | .tens => 0
  | .units => 7
  | .power => 14
  | .percent => 15
  | .fill => 16
  | .droplet => 20

/-- The number of slots of an area (R11). -/
def Area.size : Area → Nat
  | .tens => 7
  | .units => 7
  | .power => 1
  | .percent => 1
  | .fill => 4
  | .droplet => 5

/-- The area slot `i` belongs to (R11). -/
def areaOf (i : Nat) : Area :=
  if i < 7 then .tens else if i < 14 then .units else if i < 15 then .power else if i < 16 then .percent
  else if i < 20 then .fill else .droplet

/-- The glyph table of an area (R24). -/
def romTable (rom : Rom) : Area → List (List Slot)
  | .tens => rom.tens
  | .units => rom.units
  | .power => rom.power
  | .percent => rom.percent
  | .fill => rom.fill
  | .droplet => rom.droplet

/-- `RomRead(T, r, j)`: the slot word at row `r`, column `j` of the area's table; nothing stands outside the table (R8, R43). -/
def romRead (rom : Rom) (area : Area) (r j : Nat) : Option Slot :=
  match (romTable rom area)[r]? with
  | some cells => cells[j]?
  | none => none

/-- `SEG[base..base+n-1]`, the segments of an area (R23, R24). -/
def areaSegs (rom : Rom) (area : Area) : List Slot := (rom.seg.drop area.base).take area.size

/-- Whether slot `i` may hold `w`: `ZERO` or a segment of the slot's own area (R11, R36). -/
def slotLegal (rom : Rom) (i : Nat) (w : Slot) : Bool :=
  decide (w = Slot.zero) || (areaSegs rom (areaOf i)).contains w

/-! ## The build-time contract (R28) -/

/-- One line high, one line low, the others floating (R22 i and ii). -/
def segWf (w : Slot) : Bool :=
  subset w.anode w.active && popcount w.active == 2 && popcount w.anode == 1

/-- A glyph row has one entry per slot of its area, each `ZERO` or a segment of the area, and no segment twice (R24). -/
def rowWf (rom : Rom) (area : Area) (cells : List Slot) : Bool :=
  decide (cells.length = area.size)
    && cells.all (fun w => decide (w = Slot.zero) || (areaSegs rom area).contains w)
    && decide (cells.filter (fun w => !decide (w = Slot.zero))).Nodup

/-- The row whose lit set is empty. -/
def rowBlank (cells : List Slot) : Bool := cells.all fun w => decide (w = Slot.zero)

/-- The row whose lit set is the whole area. -/
def rowAll (rom : Rom) (area : Area) (cells : List Slot) : Bool := (areaSegs rom area).all fun w => cells.contains w

/-- A table has exactly its number of rows, each well-formed (R24, R28). -/
def tableWf (rom : Rom) (area : Area) (rows : Nat) : Bool :=
  decide ((romTable rom area).length = rows) && (romTable rom area).all (rowWf rom area)

/-- `T_ROWS`, the number of rows of an area's table (R5, R26). -/
def areaRows (p : Params) : Area → Nat
  | .tens => p.tensRows
  | .units => p.unitsRows
  | .power => 2
  | .percent => 2
  | .fill => p.fillRows
  | .droplet => p.dropletRows

/-- The six areas. -/
def allAreas : List Area := [.tens, .units, .power, .percent, .fill, .droplet]

/-- What R25 to R27 say a table must contain: the digit tables a blank row 10 and a full row 8, the on/off tables their two
rows, the level tables an "all" and a "blank" row. -/
def contentWf (rom : Rom) : Bool :=
  rom.tens[10]?.any rowBlank && rom.tens[8]?.any (rowAll rom .tens)
    && rom.units[10]?.any rowBlank && rom.units[8]?.any (rowAll rom .units)
    && decide (rom.power = [[Slot.zero], areaSegs rom .power])
    && decide (rom.percent = [[Slot.zero], areaSegs rom .percent])
    && rom.fill.any (rowAll rom .fill) && rom.fill.any rowBlank
    && rom.droplet.any (rowAll rom .droplet) && rom.droplet.any rowBlank

/-- The build-time contract of the parameters: the constraints of R5, the Segment Table of R22, the tables of R24 to R27 (R28). -/
def paramsWf (p : Params) : Bool :=
  (decide (1 ≤ p.timerMax) && decide (p.timerMax ≤ 255)
    && decide (13 ≤ p.tensRows) && decide (12 ≤ p.unitsRows) && decide (1 ≤ p.fillRows) && decide (1 ≤ p.dropletRows)
    && decide (p.initBrightPct ≤ 255) && decide (p.nSwt ≤ 256) && decide (1 ≤ p.swtW) && decide (p.swtW ≤ 16))
  && (decide (p.rom.seg.length = 25) && p.rom.seg.all segWf && decide p.rom.seg.Nodup)
  && allAreas.all (fun a => tableWf p.rom a (areaRows p a))
  && contentWf p.rom

/-! ## The reference image (R37) -/

/-- A row of the reference image, written as the words of R61. -/
def row (words : List (BitVec 16)) : List Slot := words.map slotOfWord

/-- Reference `SEG`: the first 25 ordered pairs (high line, low line) in lexicographic order (R37). -/
def refSeg : List Slot :=
  row [0x0301, 0x0501, 0x0901, 0x1101, 0x2101, 0x0302, 0x0602] ++
  row [0x0A02, 0x1202, 0x2202, 0x0504, 0x0604, 0x0C04, 0x1404] ++
  row [0x2404] ++
  row [0x0908] ++
  row [0x0A08, 0x0C08, 0x1808, 0x2808] ++
  row [0x1110, 0x1210, 0x1410, 0x1810, 0x3010]

/-- Reference `TENS_ROM`: digits 0 to 9, blank, dash, error (R25, R37). -/
def refTens : List (List Slot) :=
  [ row [0x0301, 0x0501, 0x0901, 0x1101, 0x2101, 0x0302, 0x0000],
    row [0x0501, 0x0901, 0x0000, 0x0000, 0x0000, 0x0000, 0x0000],
    row [0x0301, 0x0501, 0x1101, 0x2101, 0x0602, 0x0000, 0x0000],
    row [0x0301, 0x0501, 0x0901, 0x1101, 0x0602, 0x0000, 0x0000],
    row [0x0501, 0x0901, 0x0302, 0x0602, 0x0000, 0x0000, 0x0000],
    row [0x0301, 0x0901, 0x1101, 0x0302, 0x0602, 0x0000, 0x0000],
    row [0x0301, 0x0901, 0x1101, 0x2101, 0x0302, 0x0602, 0x0000],
    row [0x0301, 0x0501, 0x0901, 0x0000, 0x0000, 0x0000, 0x0000],
    row [0x0301, 0x0501, 0x0901, 0x1101, 0x2101, 0x0302, 0x0602],
    row [0x0301, 0x0501, 0x0901, 0x1101, 0x0302, 0x0602, 0x0000],
    row [0x0000, 0x0000, 0x0000, 0x0000, 0x0000, 0x0000, 0x0000],
    row [0x0602, 0x0000, 0x0000, 0x0000, 0x0000, 0x0000, 0x0000],
    row [0x0301, 0x1101, 0x2101, 0x0302, 0x0602, 0x0000, 0x0000] ]

/-- Reference `UNITS_ROM`: digits 0 to 9, blank, dash (R25, R37). -/
def refUnits : List (List Slot) :=
  [ row [0x0A02, 0x1202, 0x2202, 0x0504, 0x0604, 0x0C04, 0x0000],
    row [0x1202, 0x2202, 0x0000, 0x0000, 0x0000, 0x0000, 0x0000],
    row [0x0A02, 0x1202, 0x0504, 0x0604, 0x1404, 0x0000, 0x0000],
    row [0x0A02, 0x1202, 0x2202, 0x0504, 0x1404, 0x0000, 0x0000],
    row [0x1202, 0x2202, 0x0C04, 0x1404, 0x0000, 0x0000, 0x0000],
    row [0x0A02, 0x2202, 0x0504, 0x0C04, 0x1404, 0x0000, 0x0000],
    row [0x0A02, 0x2202, 0x0504, 0x0604, 0x0C04, 0x1404, 0x0000],
    row [0x0A02, 0x1202, 0x2202, 0x0000, 0x0000, 0x0000, 0x0000],
    row [0x0A02, 0x1202, 0x2202, 0x0504, 0x0604, 0x0C04, 0x1404],
    row [0x0A02, 0x1202, 0x2202, 0x0504, 0x0C04, 0x1404, 0x0000],
    row [0x0000, 0x0000, 0x0000, 0x0000, 0x0000, 0x0000, 0x0000],
    row [0x1404, 0x0000, 0x0000, 0x0000, 0x0000, 0x0000, 0x0000] ]

/-- Reference `POWER_ROM`: off, on (R26, R37). -/
def refPower : List (List Slot) :=
  [ row [0x0000],
    row [0x2404] ]

/-- Reference `PERCENT_ROM`: off, on (R26, R37). -/
def refPercent : List (List Slot) :=
  [ row [0x0000],
    row [0x0908] ]

/-- Reference `FILL_ROM`: four single-part symbols, all, blank (R27, R37). -/
def refFill : List (List Slot) :=
  [ row [0x0A08, 0x0000, 0x0000, 0x0000],
    row [0x0C08, 0x0000, 0x0000, 0x0000],
    row [0x1808, 0x0000, 0x0000, 0x0000],
    row [0x2808, 0x0000, 0x0000, 0x0000],
    row [0x0A08, 0x0C08, 0x1808, 0x2808],
    row [0x0000, 0x0000, 0x0000, 0x0000] ]

/-- Reference `DROPLET_ROM`: five single-part symbols, all, blank (R27, R37). -/
def refDroplet : List (List Slot) :=
  [ row [0x1110, 0x0000, 0x0000, 0x0000, 0x0000],
    row [0x1210, 0x0000, 0x0000, 0x0000, 0x0000],
    row [0x1410, 0x0000, 0x0000, 0x0000, 0x0000],
    row [0x1810, 0x0000, 0x0000, 0x0000, 0x0000],
    row [0x3010, 0x0000, 0x0000, 0x0000, 0x0000],
    row [0x1110, 0x1210, 0x1410, 0x1810, 0x3010],
    row [0x0000, 0x0000, 0x0000, 0x0000, 0x0000] ]

/-- The reference ROM image: the spec's own construction, not the original panel's table (R37; log 10). -/
def refRom : Rom :=
  { seg := refSeg, tens := refTens, units := refUnits, power := refPower, percent := refPercent, fill := refFill,
    droplet := refDroplet }

/-- Every parameter of R5 at its default, with the reference image (log 10). -/
def defaultParams : Params :=
  { timerMax := Config.defaultTimerMax, rom := refRom, tensRows := Config.defaultTensRows,
    unitsRows := Config.defaultUnitsRows, fillRows := Config.defaultFillRows, dropletRows := Config.defaultDropletRows,
    initBrightPct := Config.defaultInitBrightPct, initRun := Config.defaultInitRun,
    maxServiceLatency := Config.defaultMaxServiceLatency, nSwt := Config.defaultNSwt, swtW := Config.defaultSwtW }

end Sys2Proof.Machine
end

