-- ==== Sys2Proof/Machine/State.lean ====
section
/-! DEFINITION. The state of the machine as plain data (R10), the schedule it reads its steps from (R46, R67), the reasons a step can
stop, and the state after reset (R33, R190). -/

namespace Sys2Proof.Machine

/-- The three event sources, highest priority first (R162, R164). -/
inductive Event where
  | blank | scan | swtTick
  deriving DecidableEq, Repr

/-- Why a step faults. The block itself raises no fault (R160): each of these names a state that no run from a legal state
reaches, so stopping there is safe (log 16). -/
inductive Fault where
  /-- `SCAN` with `CURSOR` above 24: the slot does not exist (R13, R43). Safe. -/
  | cursorOutOfRange
  /-- A content command reads a row or a column its ROM table does not have: the image is not a ROM of this block (R28). Safe. -/
  | romIndex
  /-- A timer operation names a handle below `N_SWT` whose timer is missing from the bank (R29). Safe. -/
  | noSuchTimer
  /-- `FG` holds progress that no command makes: a word that is no command, or a micro-step it does not have (R30). Safe. -/
  | badProgress
  deriving DecidableEq, Repr

/-- Why a step is refused. -/
inductive Refusal where
  /-- An arm of `exec` that has no meaning yet. Safe. -/
  | notModelled (mnemonic : String)
  /-- The word is reserved, or an event label stands on the command port (R67, R68, U10). Raised by `runTurn` and
  `presentCommand`. Safe: the block would answer 0 and change nothing (log 5). -/
  | reservedWord (w : CmdWord)
  /-- A timer command whose handle is not below `N_SWT` (R68). Raised by the meanings of `SWT_SET`, `SWT_IST`, `SWT_ACT`. Safe. -/
  | handleOutOfRange (h : Byte)
  /-- An event label stands in the trace where its service is not eligible, so the trace is none of this block's (R67, R104,
  R145). Raised by the meanings of `BLANK`, `SCAN`, `SWT_TICK`. Safe (log 6). -/
  | notEligible (e : Event)
  /-- A command is issued or presented while another is in flight; the host does not do that (R30, R60, R208), and the spec gives it no
  effect. Raised by `runCommand` and `presentCommand`. Safe (log 29). -/
  | commandInFlight
  /-- The schedule holds no further step. Raised by `step`. Safe (log 14). -/
  | traceEnded
  deriving DecidableEq, Repr

/-- A software timer: an `active` flag and the ticks left; of the 16 bits the low `SWT_W` are the count (R29, R140; log 17). -/
structure SwTimer where
  active : Bool
  count : Ticks
  deriving DecidableEq, Repr

/-- `FG`, the progress of the host's command in flight (R30): idle, or the command word, the index of its next micro-step and the
value it has already read. -/
inductive Fg where
  | idle
  | busy (word : CmdWord) (next : Nat) (read : Option Ticks)
  deriving DecidableEq, Repr

/-- One entry of the schedule: which agent takes the next step (R40, R46; log 2). -/
inductive Turn where
  /-- A word of a trace (R67): a host command with all its micro-steps, no event between them, or one hardware step. -/
  | word (w : CmdWord)
  /-- The host presents a word on the command port and the command begins (R60; log 18). -/
  | present (w : CmdWord)
  /-- The host takes the next micro-step of the command in flight (R8, R46). -/
  | micro
  /-- The event servicer takes the service of highest priority that is eligible (R104, R164; log 13). -/
  | service
  /-- The low-rate source sets `SWT_PEND` (R144). -/
  | lowRate
  deriving DecidableEq, Repr

/-- The whole state of the block (R10), with the machine's parameters, the answer of the command port and the schedule beside
it (log 1, log 2, log 4). -/
structure State where
  /-- The parameters the machine was built with; no step writes them (R5, R32; log 1). -/
  params : Params
  /-- `BUF[0..24]`, the display buffer (R11). -/
  buf : Vector Slot 25
  /-- `CURSOR`, the slot the next `SCAN` applies (R13). -/
  cursor : Byte
  /-- `CNT`, the scan-timer counter (R15). -/
  cnt : Byte
  /-- `CMP`, the Brightness Level (R16). -/
  cmp : Byte
  /-- `RUN`: the scan-tick clock runs (R17). -/
  run : Bool
  /-- `OVF_EN`: the scan-tick interrupt is enabled (R18). -/
  ovfEn : Bool
  /-- `CMP_EN`: the blanking interrupt is enabled (R18). -/
  cmpEn : Bool
  /-- `OVF_PEND`: a scan tick is pending (R19). -/
  ovfPend : Bool
  /-- `CMP_PEND`: a blank is pending (R19). -/
  cmpPend : Bool
  /-- `DIR`: bit `i` drives line `i` (R20). -/
  dir : Mask
  /-- `OUT`: the level of a driven line (R20). -/
  out : Mask
  /-- `SWT[0..N_SWT-1]`, the software timers (R29). -/
  swt : List SwTimer
  /-- `SWT_PEND`: a low-rate tick is pending (R29). -/
  swtPend : Bool
  /-- `FG`, the command in flight (R30). -/
  fg : Fg
  /-- The response bit the command port gave last; none before the first command completes and while one is in flight (R60;
  log 4). -/
  resp : Option Bool
  /-- The model's own: the steps still to come, the next one first (R46; log 2). -/
  trace : List Turn
  deriving DecidableEq, Repr

/-- A machine with the given parameters right after reset: everything zero, every timer idle, no command in flight (R33, R190;
log 9), the schedule empty (log 14). -/
def State.resetWith (p : Params) : State :=
  { params := p, buf := Vector.replicate 25 Slot.zero, cursor := 0, cnt := 0, cmp := 0, run := false, ovfEn := false,
    cmpEn := false, ovfPend := false, cmpPend := false, dir := 0, out := 0, swt := List.replicate p.nSwt ⟨false, 0⟩,
    swtPend := false, fg := .idle, resp := none, trace := [] }

/-- Building a machine: parameters that fail the build-time contract are refused (R28, U12). -/
def State.construct (p : Params) : Option State := if paramsWf p then some (State.resetWith p) else none

/-- The machine right after reset, with the parameters of R5 at their defaults (R33, R190; log 9, log 10). -/
def State.reset : State := State.resetWith defaultParams

end Sys2Proof.Machine
end

