-- ==== Sys2Proof/Machine/Flags.lean ====
section
/-! DEFINITION. The flags: when a clock of the scan timer raises the pending flags (R100), when an event is eligible (R104, R145), and
the three states of a software timer (R140). -/

namespace Sys2Proof.Machine

/-- The counter wraps at the end of this clock: a scan tick is raised (R100). -/
def overflow (s : State) : Bool := s.cnt.toNat == s.params.timerMax

/-- `CNT = CMP` during this clock: a blank is raised at its end (R100). -/
def compareMatch (s : State) : Bool := s.cnt == s.cmp

/-- `CNT` after this clock (R100; log 23). -/
def nextCount (s : State) : Byte := if overflow s then 0 else s.cnt + 1

/-- `BLANK` is eligible (R104). -/
def blankEligible (s : State) : Bool := s.run && s.cmpEn && s.cmpPend

/-- `SCAN` is eligible: `BLANK` goes first (R104). -/
def scanEligible (s : State) : Bool := s.run && s.ovfEn && s.ovfPend && !blankEligible s

/-- No display event stands before the low-rate service (R145, R164). -/
def displayQuiet (s : State) : Bool := !blankEligible s && !scanEligible s

/-- `SWT_TICK` is eligible: it is pending and no display event is (R145, R164). -/
def swtTickEligible (s : State) : Bool := s.swtPend && displayQuiet s

/-- Whether the service of an event is eligible (R104, R145). -/
def eligible (s : State) : Event → Bool
  | .blank => blankEligible s
  | .scan => scanEligible s
  | .swtTick => swtTickEligible s

/-- The event has occurred and is neither serviced nor cleared: its pending flag is up, whatever gates its service (R162). -/
def pending (s : State) : Event → Bool
  | .blank => s.cmpPend
  | .scan => s.ovfPend
  | .swtTick => s.swtPend

/-- The event the servicer takes next: `BLANK`, then `SCAN`, then `SWT_TICK` (R164). -/
def nextEvent (s : State) : Option Event :=
  if blankEligible s then some .blank
  else if scanEligible s then some .scan
  else if swtTickEligible s then some .swtTick
  else none

/-- The three states of a software timer (R140). -/
inductive TimerPhase where
  | idle | armed | expiredPending
  deriving DecidableEq, Repr

/-- The state of a software timer, a function of its two fields (R29, R140). -/
def timerPhase (t : SwTimer) : TimerPhase :=
  if !t.active then .idle else if t.count = 0 then .expiredPending else .armed

/-- The timer has expired and its expiry is not yet observed (R140, R142). -/
def expired (active : Bool) (count : Ticks) : Bool := active && count == 0

end Sys2Proof.Machine
end

