-- ==== Sys2Proof/Machine/Ops.lean ====
section
/-! DEFINITION. The named operations over the registers: slots, port, scan timer, software timers, the entry of an event service and
its return (R165, R166). Every meaning is written with these. -/

namespace Sys2Proof.Machine

/-! ## Display buffer -/

/-- `BUF[CURSOR]`, one indivisible slot read; a cursor above 24 names no slot (R42, R43). -/
def readCursorSlot (s : State) : Option Slot := s.buf[s.cursor.toNat]?

/-- `BUF[i] <- w`, one indivisible slot write (R42). -/
def writeSlot (s : State) (i : Nat) (w : Slot) : State := { s with buf := s.buf.setIfInBounds i w }

/-! ## Port -/

/-- `DIR <- m`, all six bits (R20, R45). -/
def setDir (s : State) (m : Mask) : State := { s with dir := m }

/-- `OUT <- m`, all six bits (R20, R45). -/
def setOut (s : State) (m : Mask) : State := { s with out := m }

/-! ## Scan timer and cursor -/

/-- `CURSOR <- inc_mod(CURSOR, 25)` (R13). -/
def advanceCursor (s : State) : State := { s with cursor := BitVec.ofNat 8 (incMod s.cursor.toNat 25) }

/-- `CNT <- v` (R15). -/
def setCount (s : State) (v : Byte) : State := { s with cnt := v }

/-- `CMP <- bright_map(pct)`, effective from the next `TCLK`, with no second copy of the register (R16, R122). -/
def setBrightness (s : State) (pct : Nat) : State :=
  { s with cmp := BitVec.ofNat 8 (brightMap s.params.timerMax pct) }

/-- `RUN <- b` (R17). -/
def setRun (s : State) (b : Bool) : State := { s with run := b }

/-- `OVF_EN <- 1 ; CMP_EN <- 1` (R18). -/
def enableEvents (s : State) : State := { s with ovfEn := true, cmpEn := true }

/-- `OVF_PEND <- 0 ; CMP_PEND <- 0` (R19). -/
def clearPending (s : State) : State := { s with ovfPend := false, cmpPend := false }

/-- Raise the flags of a clock: a flag that is already 1 stays 1, the new occurrence merges (R19, R100, R204). -/
def raisePending (s : State) (ovf mat : Bool) : State :=
  { s with ovfPend := s.ovfPend || ovf, cmpPend := s.cmpPend || mat }

/-! ## Software timers -/

/-- `SWT[h].count <- c`, guarded: indivisible (R49, R141). -/
def setTimerCount (s : State) (h : Nat) (c : Ticks) : State :=
  { s with swt := s.swt.modify h fun t => { t with count := c } }

/-- `SWT[h].active <- b` (R141 to R143). -/
def setTimerActive (s : State) (h : Nat) (b : Bool) : State :=
  { s with swt := s.swt.modify h fun t => { t with active := b } }

/-- Every count goes down by one and stops at 0; `active` is not read (R145). -/
def tickTimers (s : State) : State :=
  { s with swt := s.swt.map fun t => { t with count := decSat t.count } }

/-- The low-rate interrupt occurs: `SWT_PEND <- 1` (R144). -/
def raiseSwt (s : State) : State := { s with swtPend := true }

/-! ## Events (R165, R166) -/

/-- Taking an event: no architectural state is saved and no mode changes; the service clears its own pending flag as its first
action (R165). -/
def enterService (e : Event) (s : State) : State :=
  match e with
  | .blank => { s with cmpPend := false }
  | .scan => { s with ovfPend := false }
  | .swtTick => { s with swtPend := false }

/-- Returning from an event: the end of the step, with nothing to restore (R166). -/
def leaveService (s : State) : State := s

/-! ## The command port -/

/-- A command completes: its response bit is returned and the port is free (R60). -/
def respond (s : State) (b : Bool) : State := { s with fg := .idle, resp := some b }

end Sys2Proof.Machine
end

