-- ==== Sys2Proof/Machine/Micro.lean ====
section
/-! DEFINITION. Micro-steps, the unit of interleaving (R8, R46): what one of them does, and running a command's micro-steps one after
another. A command's own list stands with its meaning (Content.lean, Lifecycle.lean, SoftTimer.lean). -/

namespace Sys2Proof.Machine

/-- One micro-step of a host command. -/
inductive Micro where
  /-- `BUF[i] <- ZERO` (R8 `ZeroRange`). -/
  | zero (i : Nat)
  /-- `BUF[i] <- RomRead(T, r, j)`, the slot `i = base + j` (R8 `CopyRow`). -/
  | copy (area : Area) (r j : Nat)
  /-- All of `INIT` (R120, R121). -/
  | init
  /-- All of `BRIGHT` (R121, R123). -/
  | bright (pct : Byte)
  /-- All of `DRVON` (R121, R124). -/
  | drvOn
  /-- All of `DRVOFF` (R121, R125). -/
  | drvOff
  /-- The guarded write of `SWT_SET` (R141). -/
  | writeCount (h : Byte) (ticks : Ticks)
  /-- `SWT[h].active <- b` (R141, R143). -/
  | writeActive (h : Byte) (b : Bool)
  /-- The guarded read of `SWT_IST` (R142). -/
  | readCount (h : Byte)
  /-- The decision of `SWT_IST` on the value read (R142). -/
  | testExpiry (h : Byte)
  deriving DecidableEq, Repr

/-- Where a command stands between two micro-steps: the state, the value it has read, the bit it would return. -/
structure Progress where
  state : State
  read : Option Ticks
  ret : Bool
  deriving DecidableEq, Repr

/-- `INIT`'s writes: the counter and the flags, the brightness, the enables, and `RUN <- 1` where `INIT_RUN` says so (R120). -/
def initEffect (s : State) : State :=
  setRun (enableEvents (setBrightness (clearPending (setCount s 0)) s.params.initBrightPct)) (s.params.initRun || s.run)

/-- `DRVON`'s writes: the stale flags first, then the clock (R124). -/
def drvOnEffect (s : State) : State := setRun (clearPending s) true

/-- `DRVOFF`'s writes: the clock, then the levels, then the drivers (R125). -/
def drvOffEffect (s : State) : State := setDir (setOut (setRun s false) 0) 0

/-- One micro-step (R8, R46): it takes effect as a whole, and a command's response is what its last micro-step returns. -/
def runMicro (m : Micro) (p : Progress) : Except Fault Progress :=
  match m with
  | .zero i => .ok ⟨writeSlot p.state i Slot.zero, p.read, false⟩
  | .copy area r j =>
    match romRead p.state.params.rom area r j with
    | some w => .ok ⟨writeSlot p.state (area.base + j) w, p.read, false⟩
    | none => .error .romIndex
  | .init => .ok ⟨initEffect p.state, p.read, false⟩
  | .bright pct => .ok ⟨setBrightness p.state (v8 pct), p.read, false⟩
  | .drvOn => .ok ⟨drvOnEffect p.state, p.read, false⟩
  | .drvOff => .ok ⟨drvOffEffect p.state, p.read, false⟩
  | .writeCount h ticks =>
    match p.state.swt[handle h]? with
    | some _ => .ok ⟨setTimerCount p.state (handle h) (truncTicks p.state.params.swtW ticks), p.read, false⟩
    | none => .error .noSuchTimer
  | .writeActive h b =>
    match p.state.swt[handle h]? with
    | some _ => .ok ⟨setTimerActive p.state (handle h) b, p.read, false⟩
    | none => .error .noSuchTimer
  | .readCount h =>
    match p.state.swt[handle h]? with
    | some t => .ok ⟨p.state, some t.count, false⟩
    | none => .error .noSuchTimer
  | .testExpiry h =>
    match p.state.swt[handle h]?, p.read with
    | some t, some c =>
      if expired t.active c then .ok ⟨setTimerActive p.state (handle h) false, p.read, true⟩
      else .ok ⟨p.state, p.read, false⟩
    | none, _ => .error .noSuchTimer
    | some _, none => .error .badProgress

/-- Micro-steps one after another, stopping at the first fault. -/
def runMicros : List Micro → Progress → Except Fault Progress
  | [], p => .ok p
  | m :: ms, p =>
    match runMicro m p with
    | .ok p' => runMicros ms p'
    | .error f => .error f

/-- `ZeroRange(base, n)`: `n` micro-steps, ascending (R8, R44). -/
def zeroRange (base n : Nat) : List Micro := (List.range n).map fun j => .zero (base + j)

/-- `CopyRow(T, r, base, n)` for the area's own table, base and size: ascending (R8, R44). -/
def copyRow (area : Area) (r : Nat) : List Micro := (List.range area.size).map fun j => .copy area r j

/-- A whole host command: every micro-step, with no event service between two of them, then the response (R46 allows no step
between; log 3). The host issues it only when no other command is in flight (R30). -/
def runCommand (ms : List Micro) (s : State) : Host.Outcome State Fault Refusal :=
  match s.fg with
  | .busy _ _ _ => .refused .commandInFlight
  | .idle =>
    match runMicros ms ⟨s, none, false⟩ with
    | .ok p => .next (respond p.state p.ret)
    | .error f => .fault f

end Sys2Proof.Machine
end

