-- ==== Sys2Proof/Machine/Content.lean ====
section
/-! DEFINITION. The seven content commands (40_buffer_commands.md): each one's micro-steps and its meaning. They write `BUF` and
nothing else, and never read it (R80, R89). -/

namespace Sys2Proof.Machine

/-- `CLEAR`: `ZeroRange(0, 25)` (R81). -/
def clearMicros : List Micro := zeroRange 0 25

/-- `NUM v`: the tens row, then the units row (R82, R83). -/
def numMicros (value : Byte) : List Micro :=
  copyRow .tens (numRows value).1 ++ copyRow .units (numRows value).2

/-- `NUMCLR`: `ZeroRange(0, 14)` (R84). -/
def numclrMicros : List Micro := zeroRange 0 14

/-- `POWER b`: the on or the off row (R85). -/
def powerMicros (b : Byte) : List Micro := copyRow .power (onOffRow b)

/-- `PCT b`: the on or the off row (R86). -/
def pctMicros (b : Byte) : List Micro := copyRow .percent (onOffRow b)

/-- `DROP level`: the row `level mod DROPLET_ROWS` (R88). -/
def dropMicros (p : Params) (level : Byte) : List Micro := copyRow .droplet (levelRow level p.dropletRows)

/-- `FILL level`: the row `level mod FILL_ROWS` (R87). -/
def fillMicros (p : Params) (level : Byte) : List Micro := copyRow .fill (levelRow level p.fillRows)

/-- `CLEAR`: "zero the entire buffer (all areas)" (R81). -/
def execClear (s : State) : Host.Outcome State Fault Refusal := runCommand clearMicros s

/-- `NUM v`: both digits shown (R82). -/
def execNum (value : Byte) (s : State) : Host.Outcome State Fault Refusal := runCommand (numMicros value) s

/-- `NUMCLR`: both digit areas off, the others untouched (R84). -/
def execNumclr (s : State) : Host.Outcome State Fault Refusal := runCommand numclrMicros s

/-- `POWER b`: the power mark on or off (R85). -/
def execPower (b : Byte) (s : State) : Host.Outcome State Fault Refusal := runCommand (powerMicros b) s

/-- `PCT b`: the percent mark on or off (R86). -/
def execPct (b : Byte) (s : State) : Host.Outcome State Fault Refusal := runCommand (pctMicros b) s

/-- `DROP level`: the droplet gauge (R88). -/
def execDrop (level : Byte) (s : State) : Host.Outcome State Fault Refusal := runCommand (dropMicros s.params level) s

/-- `FILL level`: the fill gauge (R87). -/
def execFill (level : Byte) (s : State) : Host.Outcome State Fault Refusal := runCommand (fillMicros s.params level) s

end Sys2Proof.Machine
end

