-- ==== Sys2Proof/Machine/Lifecycle.lean ====
section
/-! DEFINITION. The lifecycle and brightness commands (42_lifecycle_commands.md), one micro-step each (R121), and the two power states
they switch between (R173). -/

namespace Sys2Proof.Machine

/-- `INIT` (R120). -/
def initMicros : List Micro := [.init]

/-- `BRIGHT pct` (R123). -/
def brightMicros (pct : Byte) : List Micro := [.bright pct]

/-- `DRVON` (R124). -/
def drvonMicros : List Micro := [.drvOn]

/-- `DRVOFF` (R125). -/
def drvoffMicros : List Micro := [.drvOff]

/-- `INIT`: configures the scan timer, the brightness and both enables (R120). -/
def execInit (s : State) : Host.Outcome State Fault Refusal := runCommand initMicros s

/-- `BRIGHT pct`: `CMP <- bright_map(pct)` (R123). -/
def execBright (pct : Byte) (s : State) : Host.Outcome State Fault Refusal := runCommand (brightMicros pct) s

/-- `DRVON`: clears stale flags, resumes the clock (R124). -/
def execDrvon (s : State) : Host.Outcome State Fault Refusal := runCommand drvonMicros s

/-- `DRVOFF`: stops the clock, releases every line (R125). -/
def execDrvoff (s : State) : Host.Outcome State Fault Refusal := runCommand drvoffMicros s

/-- The two power states (R173). -/
inductive PowerState where
  | driverOn | driverOff
  deriving DecidableEq, Repr

/-- Driver on exactly when the scan-tick clock runs (R173). -/
def powerState (s : State) : PowerState := if s.run then .driverOn else .driverOff

end Sys2Proof.Machine
end

