-- ==== Sys2Proof/Machine/Scan.lean ====
section
/-! DEFINITION. The scan sequencer: the clock of the scan timer and the two display services (41_scan_events.md). -/

namespace Sys2Proof.Machine

/-- One clock of the running scan timer: the flags are decided by the value `CNT` had during it (R100). -/
def clockEffect (s : State) : State := raisePending (setCount s (nextCount s)) (overflow s) (compareMatch s)

/-- `TCLK`: no effect while the clock is stopped (R100). -/
def execTclk (s : State) : Host.Outcome State Fault Refusal := if s.run then .next (clockEffect s) else .next s

/-- `SCAN` up to part (a): its flag cleared and `DIR <- s.active`, `OUT` still as before. Only the pins see this state (R45). -/
def scanPartA (w : Slot) (s : State) : State := setDir (enterService .scan s) w.active

/-- `SCAN` from part (b) on: `OUT <- s.anode`, then the cursor advances (R45, R102). -/
def scanPartB (w : Slot) (s : State) : State := leaveService (advanceCursor (setOut s w.anode))

/-- `SCAN`: applies the slot at the cursor to the port, then advances the cursor (R102). -/
def execScan (s : State) : Host.Outcome State Fault Refusal :=
  if eligible s .scan then
    match readCursorSlot s with
    | some w => .next (scanPartB w (scanPartA w s))
    | none => .fault .cursorOutOfRange
  else .refused (.notEligible .scan)

/-- `BLANK`: forces all six levels low, the drivers unchanged (R103). -/
def execBlank (s : State) : Host.Outcome State Fault Refusal :=
  if eligible s .blank then .next (leaveService (setOut (enterService .blank s) 0)) else .refused (.notEligible .blank)

end Sys2Proof.Machine
end

