-- ==== Sys2Proof/Machine/SoftTimer.lean ====
section
/-! DEFINITION. The companion unit: the software timers (43_software_timer.md). -/

namespace Sys2Proof.Machine

/-- `SWT_SET h, ticks`: the guarded write, then the flag (R141). -/
def swtSetMicros (h : Byte) (ticks : Ticks) : List Micro := [.writeCount h ticks, .writeActive h true]

/-- `SWT_IST h`: the guarded read, then the decision (R142). -/
def swtIstMicros (h : Byte) : List Micro := [.readCount h, .testExpiry h]

/-- `SWT_ACT h, b`: the flag alone (R143). -/
def swtActMicros (h b : Byte) : List Micro := [.writeActive h (boolOf b)]

/-- A timer command runs when its handle names a timer of the machine, else the word is reserved (R62, R68). -/
def runTimerCommand (h : Byte) (ms : List Micro) (s : State) : Host.Outcome State Fault Refusal :=
  if handle h < s.params.nSwt then runCommand ms s else .refused (.handleOutOfRange h)

/-- `SWT_SET h, ticks`: arms the timer (R141). -/
def execSwtSet (h : Byte) (ticks : Ticks) (s : State) : Host.Outcome State Fault Refusal :=
  runTimerCommand h (swtSetMicros h ticks) s

/-- `SWT_IST h`: polls the timer and consumes its expiry (R142). -/
def execSwtIst (h : Byte) (s : State) : Host.Outcome State Fault Refusal := runTimerCommand h (swtIstMicros h) s

/-- `SWT_ACT h, b`: forces the flag, the count untouched (R143). -/
def execSwtAct (h b : Byte) (s : State) : Host.Outcome State Fault Refusal := runTimerCommand h (swtActMicros h b) s

/-- The low-rate service: every count down by one (R145). -/
def swtTickService (s : State) : State := leaveService (tickTimers (enterService .swtTick s))

/-- `SWT_TICK` as a trace label: the low-rate interrupt occurs and is serviced, which the display events, if eligible, go
before (R67, R145, R164; log 7). -/
def execSwtTick (s : State) : Host.Outcome State Fault Refusal :=
  if eligible (raiseSwt s) .swtTick then .next (swtTickService (raiseSwt s)) else .refused (.notEligible .swtTick)

end Sys2Proof.Machine
end

