-- ==== Sys2Proof/Machine/Dispatch.lean ====
section
/-! DEFINITION. One arm per instruction (R63). -/

namespace Sys2Proof.Machine

def exec (i : Instr) (s : State) : Host.Outcome State Fault Refusal :=
  match i with
  | .init => Sys2Proof.Machine.execInit s
  | .drvon => Sys2Proof.Machine.execDrvon s
  | .drvoff => Sys2Proof.Machine.execDrvoff s
  | .bright pct => Sys2Proof.Machine.execBright pct s
  | .clear => Sys2Proof.Machine.execClear s
  | .num value => Sys2Proof.Machine.execNum value s
  | .numclr => Sys2Proof.Machine.execNumclr s
  | .power b => Sys2Proof.Machine.execPower b s
  | .pct b => Sys2Proof.Machine.execPct b s
  | .drop level => Sys2Proof.Machine.execDrop level s
  | .fill level => Sys2Proof.Machine.execFill level s
  | .swtSet h ticks => Sys2Proof.Machine.execSwtSet h ticks s
  | .swtIst h => Sys2Proof.Machine.execSwtIst h s
  | .swtAct h b => Sys2Proof.Machine.execSwtAct h b s
  | .tclk => Sys2Proof.Machine.execTclk s
  | .scan => Sys2Proof.Machine.execScan s
  | .blank => Sys2Proof.Machine.execBlank s
  | .swtTick => Sys2Proof.Machine.execSwtTick s

end Sys2Proof.Machine
end

