-- ==== Sys2Proof/Machine/Agents.lean ====
section
/-! DEFINITION. The agents of R40 taking their turns: a word of a trace, the host's command word by word and micro-step by micro-step,
the event servicer, the low-rate source (R46). And what placing a word as the next one to run takes. -/

namespace Sys2Proof.Machine

/-- The micro-steps of a host command; an event label has none (R8, R46). -/
def microsOf (p : Params) : Instr → List Micro
  | .init => initMicros
  | .drvon => drvonMicros
  | .drvoff => drvoffMicros
  | .bright pct => brightMicros pct
  | .clear => clearMicros
  | .num value => numMicros value
  | .numclr => numclrMicros
  | .power b => powerMicros b
  | .pct b => pctMicros b
  | .drop level => dropMicros p level
  | .fill level => fillMicros p level
  | .swtSet h ticks => swtSetMicros h ticks
  | .swtIst h => swtIstMicros h
  | .swtAct h b => swtActMicros h b
  | .tclk | .scan | .blank | .swtTick => []

/-- What the command port decodes: a command word, never an event label (R67, R68). -/
def decodeCommand (nSwt : Nat) (w : CmdWord) : Option Instr :=
  match decode nSwt w with
  | some i => if i.isLabel then none else some i
  | none => none

/-- A word of a trace: the instruction it decodes to runs; a reserved word is refused (R67, R68; log 3, log 5). -/
def runWord (w : CmdWord) (s : State) : Host.Outcome State Fault Refusal :=
  match decode s.params.nSwt w with
  | some i => exec i s
  | none => .refused (.reservedWord w)

/-- The host presents a word: the command is in flight with no micro-step taken yet and no response (R30, R60; log 18). -/
def presentCommand (w : CmdWord) (s : State) : Host.Outcome State Fault Refusal :=
  match s.fg with
  | .busy _ _ _ => .refused .commandInFlight
  | .idle =>
    match decodeCommand s.params.nSwt w with
    | some _ => .next { s with fg := .busy w 0 none, resp := none }
    | none => .refused (.reservedWord w)

/-- The host's next micro-step. The last one completes the command and returns its response; an idle host has none to take
(R30, R46, R60; log 13). -/
def hostMicro (s : State) : Host.Outcome State Fault Refusal :=
  match s.fg with
  | .idle => .next s
  | .busy w n rd =>
    match decodeCommand s.params.nSwt w with
    | none => .fault .badProgress
    | some i =>
      match (microsOf s.params i)[n]? with
      | none => .fault .badProgress
      | some m =>
        match runMicro m ⟨s, rd, false⟩ with
        | .error f => .fault f
        | .ok p =>
          if n + 1 = (microsOf s.params i).length then .next (respond p.state p.ret)
          else .next { p.state with fg := .busy w (n + 1) p.read }

/-- The event servicer's turn: the eligible service of highest priority, or nothing to do (R104, R164; log 13). -/
def runService (s : State) : Host.Outcome State Fault Refusal :=
  match nextEvent s with
  | some .blank => execBlank s
  | some .scan => execScan s
  | some .swtTick => execSwtTick s
  | none => .next s

/-- One entry of the schedule (R46). -/
def runTurn (t : Turn) (s : State) : Host.Outcome State Fault Refusal :=
  match t with
  | .word w => runWord w s
  | .present w => presentCommand w s
  | .micro => hostMicro s
  | .service => runService s
  | .lowRate => .next (raiseSwt s)

/-! ## Placing a word (log 15) -/

/-- `SCAN` or `BLANK` runs only when its flags select it (R104): the flags that do, raised where the service is not eligible yet.
`SWT_TICK` runs when no display event is eligible. A host command runs when no other is in flight. `TCLK` needs nothing. -/
def selectFor (i : Instr) (s : State) : State :=
  match i with
  | .scan =>
    if scanEligible s then s else { s with run := true, ovfEn := true, ovfPend := true, cmpPend := false }
  | .blank => if blankEligible s then s else { s with run := true, cmpEn := true, cmpPend := true }
  | .swtTick => if displayQuiet s then s else clearPending s
  | .tclk => s
  | .init | .drvon | .drvoff | .bright _ | .clear | .num _ | .numclr | .power _ | .pct _ | .drop _ | .fill _
  | .swtSet _ _ | .swtIst _ | .swtAct _ _ => { s with fg := .idle }

/-- The word of a table row becomes the next entry of the schedule, and the state is one in which that entry runs. -/
def placeWord (s : State) (w : CmdWord) : State :=
  let s := match decode s.params.nSwt w with
    | some i => selectFor i s
    | none => s
  { s with trace := .word w :: s.trace }

end Sys2Proof.Machine
end

