-- ==== Sys2Proof/Machine/Step.lean ====
section
/-! DEFINITION. One step: the next entry of the schedule, taken by the agent it names (R46). -/

namespace Sys2Proof.Machine

/-- One step. Past the end of the schedule nothing is known to happen, and the step is refused (log 14). -/
def step (s : State) : Host.Outcome State Fault Refusal :=
  match s.trace with
  | [] => .refused .traceEnded
  | t :: rest => runTurn t { s with trace := rest }

/-- `s` with the word whose table bits are `w` as its next step: stored at the head of the schedule, the flags that select a
service raised (log 15). -/
def State.withFetchWord (s : State) (nbits w : Nat) : State := placeWord s (BitVec.ofNat 32 (w % 2 ^ nbits))

end Sys2Proof.Machine
end

