-- ==== Sys2Proof/Machine/Observe.lean ====
section
/-! DEFINITION. What the world sees of the block: the six line states (R34), the segments they light (R35), and the picture of a frame
(R107). -/

namespace Sys2Proof.Machine

/-- The state of a line (R34). -/
inductive Level where
  /-- High-impedance. -/
  | Z
  /-- Driven high. -/
  | H
  /-- Driven low. -/
  | L
  deriving DecidableEq, Repr

/-- The state of line `i` for the port registers `dir` and `out` (R34). -/
def lineLevel (dir out : Mask) (i : Nat) : Level :=
  if dir.getLsbD i then (if out.getLsbD i then .H else .L) else .Z

/-- The six line states, line 0 first (R34, R172). -/
def pins (s : State) : List Level := (List.range 6).map (lineLevel s.dir s.out)

/-- Whether a segment conducts: its anode line is `H` and its other active line is `L` (R35; log 21). -/
def segLit (dir out : Mask) (seg : Slot) : Bool :=
  subset seg.anode (dir &&& out) && subset (seg.active &&& ~~~seg.anode) (dir &&& ~~~out)

/-- `lit(DIR, OUT)`: the numbers of the segments lit (R35). -/
def lit (rom : Rom) (dir out : Mask) : List Nat :=
  (List.range 25).filter fun k =>
    match rom.seg[k]? with
    | some seg => segLit dir out seg
    | none => false

/-- The segments the block lights now (R35). -/
def litNow (s : State) : List Nat := lit s.params.rom s.dir s.out

/-- The rendered output of a full scan cycle: slot index to the pair `(DIR, OUT)` right after its `SCAN` (R107). -/
def rendered (s : State) : List (Mask × Mask) := s.buf.toList.map fun w => (w.active, w.anode)

end Sys2Proof.Machine
end

