-- ==== Sys2Proof/Machine/Pseudo.lean ====
section
/-! DEFINITION. The pseudo-operations of R72 and the reference schedule of R106: lists of trace entries, with no word of their own. -/

namespace Sys2Proof.Machine

/-- A trace entry for an instruction. -/
def entry (i : Instr) : Turn := .word (encode i)

/-- `SCAN*n`, `TCLK*n`: a label repeated (R72). -/
def repeated (i : Instr) (n : Nat) : List Turn := List.replicate n (entry i)

/-- `SWT_SET_MS h, ms`: `SWT_SET h, MS_TO_TICKS(ms, period)`. A result above 65535 has no `SWT_SET` (R72, R146, R206; log 11). -/
def swtSetMs (periodMs : Nat) (h : Byte) (ms : Nat) : Option Instr :=
  match msToTicks ms periodMs with
  | some n => if n < 2 ^ 16 then some (.swtSet h (BitVec.ofNat 16 n)) else none
  | none => none

/-- `SWT_SET_MS h, ms` at the machine's own period (R72; log 12). -/
def swtSetMsHere (h : Byte) (ms : Nat) : Option Instr := swtSetMs Config.swtPeriodMs h ms

/-- One entry of a schedule run on a state; the state stays as it was where the entry is refused or faults. -/
def after (s : State) (i : Instr) : State :=
  match exec i s with
  | .next s' => s'
  | .fault _ => s
  | .refused _ => s

/-- One `TCLK` with the display events eligible after it serviced at once, `BLANK` first: the entries and the state they lead to. R72
speaks of the events a `TCLK` of the period raised; that one already pending before the period's first `TCLK` is serviced right after that
`TCLK` is the model's choice (log 28). -/
def expandClock (s : State) : List Turn × State :=
  let s1 := after s .tclk
  let (b, s2) := if blankEligible s1 then ([entry .blank], after s1 .blank) else ([], s1)
  let (c, s3) := if scanEligible s2 then ([entry .scan], after s2 .scan) else ([], s2)
  (entry .tclk :: b ++ c, s3)

/-- `n` clocks expanded one after another (R72). -/
def expandClocks : Nat → State → List Turn × State
  | 0, s => ([], s)
  | n + 1, s =>
    let (es, s1) := expandClock s
    let (rest, s2) := expandClocks n s1
    (es ++ rest, s2)

/-- `PERIOD` as it expands on `s` (R72). -/
def period (s : State) : List Turn := (expandClocks (s.params.timerMax + 1) s).1

/-- `FRAME = PERIOD*25` as it expands on `s` (R72). -/
def frame (s : State) : List Turn := (expandClocks (25 * (s.params.timerMax + 1)) s).1

/-- The reference schedule of one scan-tick period with `CMP = c`, from just after one overflow to just after the next (R106). At
`c = TIMER_MAX` no clock is left after the `BLANK`: it is the one R106 shows opening the next period, before that period's `SCAN`. -/
def referencePeriod (timerMax c : Nat) : List Turn :=
  entry .scan :: repeated .tclk (c + 1) ++ entry .blank :: repeated .tclk (timerMax - c)

end Sys2Proof.Machine
end

