-- ==== Sys2Proof/Safety.lean ====
section
/-! DEFINITION. What counts as a legal state (R36 and the shape of the timer bank and of `FG`), a safe run (R160), and a schedule that
keeps the latency bound (R105). -/

namespace Sys2Proof.Machine

/-- The value `SWT_IST` decides on has been read by the time it decides (R30, R142). -/
def readDone (m : Micro) (rd : Option Ticks) : Bool :=
  match m with
  | .testExpiry _ => rd.isSome
  | .zero _ | .copy _ _ _ | .init | .bright _ | .drvOn | .drvOff | .writeCount _ _ | .writeActive _ _ | .readCount _ => true

/-- `FG` is idle, or holds a command word of this machine and one of its micro-steps (R30). -/
def fgLegal (p : Params) : Fg → Bool
  | .idle => true
  | .busy w n rd =>
    match decodeCommand p.nSwt w with
    | none => false
    | some i =>
      match (microsOf p i)[n]? with
      | none => false
      | some m => readDone m rd

/-- The invariant of the reachable state (R36), with the shape of the timer bank (R29) and of `FG` (R30). -/
structure Legal (s : State) : Prop where
  /-- The ROM and the parameters pass the build-time contract (R28). -/
  params : paramsWf s.params = true
  /-- `CURSOR <= 24`. -/
  cursor : s.cursor.toNat ≤ 24
  /-- `CNT <= TIMER_MAX`. -/
  cnt : s.cnt.toNat ≤ s.params.timerMax
  /-- `CMP <= TIMER_MAX`. -/
  cmp : s.cmp.toNat ≤ s.params.timerMax
  /-- Every `BUF[i]` is `ZERO` or a segment of slot `i`'s area. -/
  buf : ∀ (i : Nat) (h : i < 25), slotLegal s.params.rom i s.buf[i] = true
  /-- `OUT ⊆ DIR` (R21). -/
  port : subset s.out s.dir = true
  /-- There are `N_SWT` timers. -/
  bank : s.swt.length = s.params.nSwt
  /-- Every count has `SWT_W` bits. -/
  counts : ∀ t ∈ s.swt, t.count.toNat < 2 ^ s.params.swtW
  /-- `FG` is progress a command makes. -/
  fg : fgLegal s.params s.fg = true

/-- A run is safe when no number of steps ends in a fault (R160). -/
def SafeRun (s : State) : Prop := ∀ (k : Nat) (f : Fault), Sys2Proof.core.run k s ≠ .fault f

/-! ## Service latency (R105; log 8) -/

/-- For each event, the timer clocks taken since it became eligible; none while it has not become eligible since it was last
serviced or cleared. -/
structure Waits where
  blank : Option Nat
  scan : Option Nat
  swtTick : Option Nat
  deriving DecidableEq, Repr

/-- What an event has waited. -/
def Waits.get (a : Waits) : Event → Option Nat
  | .blank => a.blank
  | .scan => a.scan
  | .swtTick => a.swtTick

/-- A wait of `w` clocks may grow by one under the bound `bound` (R105). -/
def mayWait (bound : Nat) (w : Option Nat) : Bool :=
  match w with
  | none => true
  | some k => decide (k + 1 ≤ bound)

/-- A further clock is within the bound: no event that has become eligible would then have waited longer than
`MAX_SERVICE_LATENCY` (R105). -/
def mayClock (s : State) (a : Waits) : Bool :=
  [Event.blank, .scan, .swtTick].all fun e => mayWait s.params.maxServiceLatency (a.get e)

/-- Whether the entry is a clock of the running scan timer; with the clock stopped no `TCLK` is taken (R40, R100). -/
def isClock (t : Turn) (s : State) : Bool :=
  match t with
  | .word w => decide (decode s.params.nSwt w = some .tclk) && s.run
  | .present _ | .micro | .service | .lowRate => false

/-- The wait of an event after an entry that led to `s`. It begins when the event becomes eligible, every clock adds one, and it ends
when the event is serviced or cleared. An event that became eligible and that another of higher priority then goes before is not
serviced yet, so its wait goes on (R105, R201, R204; log 8). -/
def nextWait (clock : Bool) (s : State) (e : Event) (w : Option Nat) : Option Nat :=
  if pending s e then
    match w with
    | some k => some (if clock then k + 1 else k)
    | none => if eligible s e then some 0 else none
  else none

/-- The waits of all three events after an entry that led to `s`. -/
def nextWaits (clock : Bool) (s : State) (a : Waits) : Waits :=
  ⟨nextWait clock s .blank a.blank, nextWait clock s .scan a.scan, nextWait clock s .swtTick a.swtTick⟩

/-- Every event that becomes eligible in the schedule `ts`, run from `s`, is serviced within `MAX_SERVICE_LATENCY` clocks (R105). -/
def servicedFrom : List Turn → Waits → State → Bool
  | [], _, _ => true
  | t :: ts, a, s =>
    (!isClock t s || mayClock s a)
      && match runTurn t { s with trace := ts } with
        | .next s' => servicedFrom ts (nextWaits (isClock t s) s' a) s'
        | .fault _ => true
        | .refused _ => true

/-- The schedule of `s` keeps the latency bound of R105; what is eligible in `s` becomes so there. -/
def servicedInTime (s : State) : Bool := servicedFrom s.trace (nextWaits false s ⟨none, none, none⟩) s

end Sys2Proof.Machine
end

