-- ==== Sys2Proof/Certificates/Slice0/Obligations.lean ====
section
/-! DEFINITION. The statements for the provers, each from the rules of spec/ its docstring names. The helpers under `Sys2Proof.Claims`
spell the rules' own words where a statement needs them. -/

namespace Sys2Proof.Claims

open Sys2Proof.Machine

/-- `OP` is one of the fourteen command codes of R68. -/
def commandCodes : List Nat := [0x01, 0x02, 0x03, 0x04, 0x10, 0x11, 0x12, 0x13, 0x14, 0x15, 0x16, 0x20, 0x21, 0x22]

/-- The codes of the no-operand commands (R62). -/
def noOperandCodes : List Nat := [0x01, 0x02, 0x03, 0x10, 0x12]

/-- The codes of the commands with a `v8` or `b` operand (R62). -/
def byteCodes : List Nat := [0x04, 0x11, 0x13, 0x14, 0x15, 0x16, 0x22]

/-- The codes of the timer commands (R62, form `h`). -/
def timerCodes : List Nat := [0x20, 0x21, 0x22]

/-- R68, clause by clause: when a command word is reserved on a machine with `nSwt` timers. -/
def Reserved (nSwt : Nat) (w : CmdWord) : Prop :=
  (opOf w).toNat ∉ commandCodes
    ∨ ((opOf w).toNat ∉ timerCodes ∧ hOf w ≠ 0)
    ∨ ((opOf w).toNat ∈ noOperandCodes ∧ argOf w ≠ 0)
    ∨ ((opOf w).toNat ∈ byteCodes ∧ argHi w ≠ 0)
    ∨ ((opOf w).toNat = 0x21 ∧ argOf w ≠ 0)
    ∨ ((opOf w).toNat ∈ timerCodes ∧ nSwt ≤ (hOf w).toNat)

/-- The label of an event's service (R67). -/
def eventInstr : Event → Instr
  | .blank => .blank
  | .scan => .scan
  | .swtTick => .swtTick

/-- The instruction the next step works for: the one its trace word decodes to, the command in flight whose micro-step is next,
or the service the event servicer takes. -/
def acting (s : State) : Option Instr :=
  match s.trace with
  | [] => none
  | .word w :: _ => decode s.params.nSwt w
  | .present _ :: _ => none
  | .micro :: _ =>
    match s.fg with
    | .idle => none
    | .busy w _ _ => decodeCommand s.params.nSwt w
  | .service :: _ => (nextEvent s).map eventInstr
  | .lowRate :: _ => none

/-- Whether slot `j` is in an area the command writes (the table of R11). -/
def ownSlot (i : Instr) (j : Nat) : Bool :=
  match i with
  | .clear => decide (j < 25)
  | .num _ | .numclr => decide (j < 14)
  | .power _ => decide (j = 14)
  | .pct _ => decide (j = 15)
  | .fill _ => decide (16 ≤ j ∧ j < 20)
  | .drop _ => decide (20 ≤ j ∧ j < 25)
  | .init | .drvon | .drvoff | .bright _ | .swtSet _ _ | .swtIst _ | .swtAct _ _ | .tclk | .scan | .blank | .swtTick => false

/-- The slot word under the scan cursor. -/
def cursorSlot (s : State) : Slot := (s.buf[s.cursor.toNat]?).getD Slot.zero

/-- The lit set of row `r` is empty (R24). -/
def BlankRow (p : Params) (a : Area) (r : Nat) : Prop := ∀ j, j < a.size → romRead p.rom a r j = some Slot.zero

/-- The lit set of row `r` is the whole area (R24). -/
def FullRow (p : Params) (a : Area) (r : Nat) : Prop :=
  ∀ k, k < a.size → ∃ j w, p.rom.seg[a.base + k]? = some w ∧ romRead p.rom a r j = some w

/-- The ticks among the entries of a schedule. -/
def ticks (es : List Instr) : Nat := es.count .swtTick

/-- The start of a scan-tick period of the reference schedule (R106): the clock runs, both events are enabled, the counter has just
overflowed and nothing else is pending. -/
structure PeriodStart (s : State) : Prop where
  legal : Legal s
  run : s.run = true
  ovfEn : s.ovfEn = true
  cmpEn : s.cmpEn = true
  cnt : s.cnt = 0
  ovfPend : s.ovfPend = true
  cmpPend : s.cmpPend = false

/-- The entries of the period of R106 for the machine's own `TIMER_MAX` and `CMP`. -/
def periodOf (s : State) : List Turn := referencePeriod s.params.timerMax s.cmp.toNat

/-- Entries that may stand between a command's micro-steps (R46): micro-steps, turns of the servicer, occurrences of the low-rate
source, and words that decode to hardware steps. -/
def Interleaved (nSwt : Nat) (t : Turn) : Prop :=
  t = .micro ∨ t = .service ∨ t = .lowRate ∨ ∃ w i, t = .word w ∧ decode nSwt w = some i ∧ i.isLabel = true

/-- `s` with a schedule. -/
def running (s : State) (ts : List Turn) : State := { s with trace := ts }

end Sys2Proof.Claims

open Sys2Proof Sys2Proof.Machine Sys2Proof.Claims

/-! ## Encoding -/

/-- R63, with the decoder vectors of 95_test_vectors.md section 4: words written out from the table decode to their
instruction. -/
def Obligations.SpecWordsDecodeToTheirInstruction : Prop :=
  decode 2 0x01000000 = some .init ∧ decode 2 0x02000000 = some .drvon ∧ decode 2 0x03000000 = some .drvoff
    ∧ decode 2 0x04000064 = some (.bright 100) ∧ decode 2 0x10000000 = some .clear ∧ decode 2 0x1100002A = some (.num 42)
    ∧ decode 2 0x12000000 = some .numclr ∧ decode 2 0x13000001 = some (.power 1) ∧ decode 2 0x14000000 = some (.pct 0)
    ∧ decode 2 0x1500000C = some (.drop 12) ∧ decode 2 0x160000FF = some (.fill 255)
    ∧ decode 2 0x200100FA = some (.swtSet 1 250) ∧ decode 2 0x21010000 = some (.swtIst 1)
    ∧ decode 2 0x22010001 = some (.swtAct 1 1) ∧ decode 2 0xE0000000 = some .tclk ∧ decode 2 0xE1000000 = some .scan
    ∧ decode 2 0xE2000000 = some .blank ∧ decode 2 0xE3000000 = some .swtTick

/-- R60, R62, R63: decoding the word of a well-formed instruction gives it back, every operand at every value. -/
def Obligations.DecodeOfEncodeIsTheInstruction : Prop :=
  ∀ (n : Nat) (i : Instr), i.wellFormed n = true → decode n (encode i) = some i

/-- R60, R68: a word that decodes is the word of the instruction it decodes to, so each word has one meaning and no bit is
dropped. -/
def Obligations.EncodeOfDecodeIsTheWord : Prop :=
  ∀ (n : Nat) (w : CmdWord) (i : Instr), decode n w = some i → encode i = w ∧ i.wellFormed n = true

/-- R63 with R68: a word is the operation of a row iff `w & mask == match` and, for the three timer rows, its handle is below `N_SWT`, which
is checked after the match; and no word matches two rows. -/
def Obligations.DecodeAgreesWithMatchAndMask : Prop :=
  (∀ (n : Nat) (w : CmdWord), ∀ r ∈ opTable,
    ((∃ i, decode n w = some i ∧ opRow i = r)
      ↔ (w &&& r.mask = r.value ∧ ((opOf r.value).toNat ∈ timerCodes → (hOf w).toNat < n))))
  ∧ opTable.Pairwise fun a b => ∀ w : CmdWord, ¬ (w &&& a.mask = a.value ∧ w &&& b.mask = b.value)

/-- R68, R67: the command port refuses exactly the reserved words, the event labels among them, and takes every other.
That a refusal is a stop of the model is its reading of R68 (log 5); that presenting a word is a step of its own, and that it takes the last
response off the port, are the model's choices (log 18, log 4). -/
def Obligations.PortRefusesExactlyReservedWords : Prop :=
  ∀ (s : State) (w : CmdWord) (rest : List Turn), s.trace = .present w :: rest → s.fg = .idle →
    (Reserved s.params.nSwt w → step s = .refused (.reservedWord w))
    ∧ (¬ Reserved s.params.nSwt w →
        step s = .next { s with fg := .busy w 0 none, resp := none, trace := rest })

/-- R61: the slot word has `active` in bits 13:8, `anode` in bits 5:0 and 0 in bits 15:14 and 7:6; `ZERO` is 0x0000; and the word names
its pair back. -/
def Obligations.SlotWordHasItsLayout : Prop :=
  slotToWord Slot.zero = 0x0000 ∧ ∀ w : Slot,
    (∀ i : Nat, i < 6 → (slotToWord w).getLsbD (8 + i) = w.active.getLsbD i ∧ (slotToWord w).getLsbD i = w.anode.getLsbD i)
    ∧ (∀ i ∈ [6, 7, 14, 15], (slotToWord w).getLsbD i = false)
    ∧ slotOfWord (slotToWord w) = w

/-! ## The step -/

/-- R46, R67: a step whose next entry is a trace word runs the instruction the word decodes to, on the state with that entry taken;
a word that decodes to nothing is refused (log 5). -/
def Obligations.StepRunsTheDecodedInstruction : Prop :=
  ∀ (s : State) (w : CmdWord) (rest : List Turn), s.trace = .word w :: rest →
    (∀ i, decode s.params.nSwt w = some i → step s = exec i { s with trace := rest })
    ∧ (decode s.params.nSwt w = none → step s = .refused (.reservedWord w))

/-- R164: the event servicer takes `BLANK` before `SCAN` before `SWT_TICK`, and nothing when none is pending and let through.
That such a turn is a step which leaves the state as it is, is the model's choice (log 13). -/
def Obligations.ServicerTakesHighestPriority : Prop :=
  ∀ (s : State) (rest : List Turn), s.trace = .service :: rest →
    let s' : State := { s with trace := rest }
    (s.run = true ∧ s.cmpEn = true ∧ s.cmpPend = true → step s = exec .blank s')
    ∧ (s.run = true ∧ s.ovfEn = true ∧ s.ovfPend = true ∧ ¬ (s.cmpEn = true ∧ s.cmpPend = true) → step s = exec .scan s')
    ∧ (¬ (s.run = true ∧ s.cmpEn = true ∧ s.cmpPend = true) → ¬ (s.run = true ∧ s.ovfEn = true ∧ s.ovfPend = true) →
        (s.swtPend = true → step s = exec .swtTick s') ∧ (s.swtPend = false → step s = .next s'))

/-- R44, R46, R60: presenting a command and taking all its micro-steps, with no event between, is the command run as one: the meaning
of every command is its micro-steps in order. That presenting the word is a step is the model's choice (log 18), and so is the command as one
step (log 3). -/
def Obligations.MicroStepsInSequenceAreTheCommand : Prop :=
  ∀ (s : State) (w : CmdWord) (i : Instr) (rest : List Turn), s.fg = .idle → decodeCommand s.params.nSwt w = some i →
    let n := (microsOf s.params i).length
    Sys2Proof.core.run (n + 1) (running s (.present w :: List.replicate n .micro ++ rest))
      = exec i (running s rest)

/-- R42, R44: a host micro-step writes the one slot its command's list names, whole: `ZERO` for a zeroed slot, the ROM entry for a copied one;
every other slot is as before, and so is every slot for a micro-step of another kind and for an idle host (log 13). -/
def Obligations.MicroStepWritesOneWholeSlot : Prop :=
  ∀ (s t : State) (rest : List Turn), s.trace = .micro :: rest → step s = .next t →
    (s.fg = .idle → t.buf = s.buf)
    ∧ ∀ (w : CmdWord) (n : Nat) (rd : Option Ticks), s.fg = .busy w n rd →
      ∃ (c : Instr) (m : Micro), decodeCommand s.params.nSwt w = some c ∧ (microsOf s.params c)[n]? = some m
        ∧ (∀ i, m = .zero i → ∀ (j : Nat) (h : j < 25), t.buf[j] = if j = i then Slot.zero else s.buf[j])
        ∧ (∀ a r k, m = .copy a r k → ∃ v, romRead s.params.rom a r k = some v
            ∧ ∀ (j : Nat) (h : j < 25), t.buf[j] = if j = a.base + k then v else s.buf[j])
        ∧ ((∀ i, m ≠ .zero i) → (∀ a r k, m ≠ .copy a r k) → t.buf = s.buf)

/-- R47 (iii) and (iv), R46: while a content command is in flight, with hardware steps interleaved in any way, every slot holds its old
word or the word the whole command gives it; once all its micro-steps are taken, every slot holds the latter. -/
def Obligations.SlotsAreOldOrNewDuringACommand : Prop :=
  ∀ (s t u : State) (w : CmdWord) (i : Instr) (ts : List Turn), s.fg = .idle → decode s.params.nSwt w = some i →
    i.isContent = true → exec i s = .next t → (∀ x ∈ ts, Interleaved s.params.nSwt x) →
    Sys2Proof.core.run (ts.length + 1) (running s (.present w :: ts)) = .next u →
    (∀ (j : Nat) (h : j < 25), u.buf[j] = s.buf[j] ∨ u.buf[j] = t.buf[j])
    ∧ ((microsOf s.params i).length ≤ ts.countP (fun x => x == .micro) → u.buf = t.buf)

/-! ## Reset, legal states, totality -/

/-- 10_state.md section 9 (the spec's decided values, D19; log 9): what reset leaves, for every choice of parameters. -/
def Obligations.ResetLeavesEverythingOff : Prop :=
  ∀ p : Params,
    let s := State.resetWith p
    (∀ (i : Nat) (h : i < 25), s.buf[i] = Slot.zero) ∧ s.cursor = 0 ∧ s.cnt = 0 ∧ s.cmp = 0 ∧ s.run = false ∧ s.ovfEn = false
      ∧ s.cmpEn = false ∧ s.ovfPend = false ∧ s.cmpPend = false ∧ pins s = [.Z, .Z, .Z, .Z, .Z, .Z] ∧ s.out = 0
      ∧ (∀ t ∈ s.swt, timerPhase t = .idle ∧ t.count = 0) ∧ s.swt.length = p.nSwt ∧ s.swtPend = false ∧ s.fg = .idle

/-- R36 at reset: the state right after reset is legal, for the default machine and for every machine that can be built. -/
def Obligations.ResetIsLegal : Prop :=
  Legal State.reset ∧ ∀ p s, State.construct p = some s → Legal s

/-- R36: every step keeps the invariant: the cursor, the counter and the compare value in range, every slot `ZERO` or a segment of its own
area, no level bit on a floating line, the timer bank and the command in flight well-formed. -/
def Obligations.EveryStepKeepsTheInvariant : Prop :=
  ∀ s t : State, Legal s → step s = .next t → Legal t

/-- R160: from a legal state no run ends in a fault. -/
def Obligations.NoFaultFromALegalState : Prop :=
  ∀ s : State, Legal s → SafeRun s

/-- R161: from a legal state every command word that is not reserved runs to the end in at most 25 micro-steps, answers with a response
bit and leaves a legal state; and so does every eligible service. -/
def Obligations.CommandsAndServicesAreTotal : Prop :=
  (∀ (s : State) (w : CmdWord) (rest : List Turn), Legal s → s.fg = .idle → s.trace = .word w :: rest →
    ¬ Reserved s.params.nSwt w →
    ∃ t i, decode s.params.nSwt w = some i ∧ (microsOf s.params i).length ≤ 25
      ∧ step s = .next t ∧ Legal t ∧ t.trace = rest ∧ t.fg = .idle ∧ t.resp.isSome = true)
  ∧ ∀ (s : State) (e : Event), Legal s → eligible s e = true → ∃ t, exec (eventInstr e) s = .next t ∧ Legal t

/-- R22: in every image that passes the contract, each segment drives exactly two lines, exactly one of them high, the 25 pairs are
pairwise different and none is `ZERO`. -/
def Obligations.SegmentsDriveDistinctLinePairs : Prop :=
  ∀ p : Params, paramsWf p = true →
    p.rom.seg.length = 25
    ∧ (∀ (k : Nat) (w : Slot), p.rom.seg[k]? = some w →
        w.anode &&& ~~~w.active = 0 ∧ popcount w.active = 2 ∧ popcount w.anode = 1 ∧ w ≠ Slot.zero)
    ∧ ∀ (j k : Nat) (v w : Slot), p.rom.seg[j]? = some v → p.rom.seg[k]? = some w → j ≠ k → v ≠ w

/-- R24 to R28: in every image that passes the contract a table has exactly its rows and columns, each entry is `ZERO` or a segment of the
table's own area, and no segment stands twice in a row; row 10 of a digit table is blank and row 8 lights all seven segments; an on/off table
is `ZERO`, then its segment; a level table has a row with its whole area and a blank row. The reference image of R37 passes. -/
def Obligations.GlyphTablesAreWellFormed : Prop :=
  paramsWf defaultParams = true
  ∧ ∀ p : Params, paramsWf p = true →
    (∀ a : Area,
      (∀ r j, (∃ w, romRead p.rom a r j = some w) ↔ (r < areaRows p a ∧ j < a.size))
      ∧ (∀ r j w, romRead p.rom a r j = some w → w = Slot.zero
          ∨ ∃ k, a.base ≤ k ∧ k < a.base + a.size ∧ p.rom.seg[k]? = some w)
      ∧ ∀ r j k w, romRead p.rom a r j = some w → romRead p.rom a r k = some w → w ≠ Slot.zero → j = k)
    ∧ (∀ a ∈ [Area.tens, .units], BlankRow p a 10 ∧ FullRow p a 8)
    ∧ (∀ a ∈ [Area.power, .percent], BlankRow p a 0 ∧ FullRow p a 1)
    ∧ ∀ a ∈ [Area.fill, .droplet], (∃ r, r < areaRows p a ∧ FullRow p a r) ∧ ∃ r, r < areaRows p a ∧ BlankRow p a r

/-! ## Content commands -/

/-- R81 and R84: `CLEAR` zeroes the whole buffer, `NUMCLR` slots 0 to 13, and neither writes anything else. -/
def Obligations.ClearAndNumclrZeroTheirSlots : Prop :=
  encode .clear = 0x10000000 ∧ encode .numclr = 0x12000000 ∧ ∀ s : State, s.fg = .idle →
    (∃ b : Vector Slot 25, exec .clear s = .next { s with buf := b, resp := some false }
      ∧ ∀ (i : Nat) (h : i < 25), b[i] = Slot.zero)
    ∧ ∃ b : Vector Slot 25, exec .numclr s = .next { s with buf := b, resp := some false }
      ∧ ∀ (i : Nat) (h : i < 25), b[i] = if i < 14 then Slot.zero else s.buf[i]

/-- R82, R83: `NUM v` shows error and the low nibble mod 11 from 128 on, dash and dash from 100 to 127, and the decimal digits below, a
tens digit 0 blank; the other four areas and everything else are unchanged. -/
def Obligations.NumShowsTheRowsOfItsValue : Prop :=
  ∀ (s : State) (v : Byte), paramsWf s.params = true → s.fg = .idle →
    let n := v.toNat
    let rt := if 128 ≤ n then 12 else if 99 < n then 11 else if n / 10 = 0 then 10 else n / 10
    let ru := if 128 ≤ n then (n % 16) % 11 else if 99 < n then 11 else n % 10
    decode s.params.nSwt (0x11000000 ||| v.setWidth 32) = some (.num v)
    ∧ ∃ b : Vector Slot 25, exec (.num v) s = .next { s with buf := b, resp := some false }
      ∧ ∀ (i : Nat) (h : i < 25),
          if i < 7 then romRead s.params.rom .tens rt i = some b[i]
          else if i < 14 then romRead s.params.rom .units ru (i - 7) = some b[i]
          else b[i] = s.buf[i]

/-- R85 and R86: `POWER b` and `PCT b` put their area's one segment, 14 and 15, into their slot for a true `b` and `ZERO` for a false one;
any nonzero byte is true; nothing else is written. -/
def Obligations.PowerAndPctShowTheirSegment : Prop :=
  ∀ (s : State) (b : Byte), paramsWf s.params = true → s.fg = .idle →
    (decode s.params.nSwt (0x13000000 ||| b.setWidth 32) = some (.power b)
      ∧ ∃ v : Vector Slot 25, exec (.power b) s = .next { s with buf := v, resp := some false }
        ∧ (b.toNat ≠ 0 → s.params.rom.seg[14]? = some v[14]) ∧ (b.toNat = 0 → v[14] = Slot.zero)
        ∧ ∀ (i : Nat) (h : i < 25), i ≠ 14 → v[i] = s.buf[i])
    ∧ (decode s.params.nSwt (0x14000000 ||| b.setWidth 32) = some (.pct b)
      ∧ ∃ v : Vector Slot 25, exec (.pct b) s = .next { s with buf := v, resp := some false }
        ∧ (b.toNat ≠ 0 → s.params.rom.seg[15]? = some v[15]) ∧ (b.toNat = 0 → v[15] = Slot.zero)
        ∧ ∀ (i : Nat) (h : i < 25), i ≠ 15 → v[i] = s.buf[i])

/-- R87: `FILL level` copies row `level mod FILL_ROWS` of the fill table to slots 16 to 19 and writes nothing else. -/
def Obligations.FillShowsItsLevelRow : Prop :=
  ∀ (s : State) (level : Byte), paramsWf s.params = true → s.fg = .idle →
    decode s.params.nSwt (0x16000000 ||| level.setWidth 32) = some (.fill level)
    ∧ ∃ b : Vector Slot 25, exec (.fill level) s = .next { s with buf := b, resp := some false }
      ∧ ∀ (i : Nat) (h : i < 25),
          if 16 ≤ i ∧ i < 20 then romRead s.params.rom .fill (level.toNat % s.params.fillRows) (i - 16) = some b[i]
          else b[i] = s.buf[i]

/-- R88: `DROP level` copies row `level mod DROPLET_ROWS` of the droplet table to slots 20 to 24 and writes nothing else. -/
def Obligations.DropShowsItsLevelRow : Prop :=
  ∀ (s : State) (level : Byte), paramsWf s.params = true → s.fg = .idle →
    decode s.params.nSwt (0x15000000 ||| level.setWidth 32) = some (.drop level)
    ∧ ∃ b : Vector Slot 25, exec (.drop level) s = .next { s with buf := b, resp := some false }
      ∧ ∀ (i : Nat) (h : i < 25),
          if 20 ≤ i then romRead s.params.rom .droplet (level.toNat % s.params.dropletRows) (i - 20) = some b[i]
          else b[i] = s.buf[i]

/-- The corner cases of R87 and R88 (S6): levels that differ by a multiple of the row count show the same. -/
def Obligations.LevelsWrapModuloTheRowCount : Prop :=
  ∀ (s : State) (l m : Byte) (k : Nat),
    (m.toNat = l.toNat + k * s.params.fillRows → exec (.fill m) s = exec (.fill l) s)
    ∧ (m.toNat = l.toNat + k * s.params.dropletRows → exec (.drop m) s = exec (.drop l) s)

/-- R51: every content command, `BRIGHT` and `DRVOFF` issued twice leave what they left the first time. -/
def Obligations.CommandsAreIdempotent : Prop :=
  ∀ (s t : State) (i : Instr), (i.isContent = true ∨ i = .drvoff ∨ ∃ p, i = .bright p) →
    exec i s = .next t → exec i t = .next t

/-- R80 (i), (iii), R89: a content command changes the buffer and gives the response 0, and changes nothing else. -/
def Obligations.ContentCommandsTouchTheBufferOnly : Prop :=
  ∀ (s t : State) (i : Instr), i.isContent = true → exec i s = .next t →
    t = { s with buf := t.buf, resp := some false }

/-! ## Lifecycle -/

/-- R120: what `INIT` writes, and nothing else. -/
def Obligations.InitConfiguresTheTimer : Prop :=
  encode .init = 0x01000000 ∧ ∀ s : State, paramsWf s.params = true → s.fg = .idle →
    ∃ c : Byte, c.toNat = (if s.params.initBrightPct ≥ 100 then s.params.timerMax
          else s.params.initBrightPct * s.params.timerMax / 100)
      ∧ exec .init s = .next { s with
          cnt := 0, ovfPend := false, cmpPend := false, cmp := c, ovfEn := true, cmpEn := true,
          run := s.params.initRun || s.run, resp := some false }

/-- R123 with R122: `BRIGHT pct` sets `CMP` to the percentage of `TIMER_MAX`, floor below 100 and clamped from 100 on, and writes nothing
else. -/
def Obligations.BrightSetsTheCompareValue : Prop :=
  ∀ (s : State) (pct : Byte), paramsWf s.params = true → s.fg = .idle →
    decode s.params.nSwt (0x04000000 ||| pct.setWidth 32) = some (.bright pct)
    ∧ ∃ c : Byte, c.toNat = (if pct.toNat ≥ 100 then s.params.timerMax else pct.toNat * s.params.timerMax / 100)
      ∧ exec (.bright pct) s = .next { s with cmp := c, resp := some false }

/-- The properties R122 gives the brightness map (S9): its end points, the clamp, its range, and that it never decreases. -/
def Obligations.BrightnessMapIsMonotone : Prop :=
  ∀ t p q : Nat, p ≤ q →
    brightMap t p ≤ brightMap t q ∧ brightMap t 0 = 0 ∧ brightMap t p ≤ t ∧ (100 ≤ p → brightMap t p = t)

/-- R124: `DRVON` clears both flags and sets `RUN`, and writes nothing else. -/
def Obligations.DrvonResumesTheClock : Prop :=
  encode .drvon = 0x02000000 ∧ ∀ s : State, s.fg = .idle →
    exec .drvon s = .next { s with ovfPend := false, cmpPend := false, run := true, resp := some false }

/-- R125: `DRVOFF` stops the clock and floats every line, and writes nothing else. -/
def Obligations.DrvoffReleasesEveryLine : Prop :=
  encode .drvoff = 0x03000000 ∧ ∀ s : State, s.fg = .idle →
    ∃ t : State, exec .drvoff s = .next t ∧ t = { s with run := false, out := 0, dir := 0, resp := some false }
      ∧ pins t = [.Z, .Z, .Z, .Z, .Z, .Z] ∧ eligible t .scan = false ∧ eligible t .blank = false

/-- R125 ("no line is driven until a `SCAN` after the next `DRVON`"): while the driver is off and the lines float, no step drives a line,
and only `DRVON`, or `INIT` with `INIT_RUN`, starts the clock. It rests on the gating of D15 (log 20). -/
def Obligations.NothingIsDrivenWhileOff : Prop :=
  ∀ s t : State, s.run = false → s.dir = 0 → s.out = 0 → step s = .next t →
    t.dir = 0 ∧ t.out = 0
    ∧ (t.run = true → acting s = some .drvon ∨ (acting s = some .init ∧ s.params.initRun = true))

/-- R126: after `DRVOFF` and `DRVON` everything is as before but the lines, which float, and the flags, which are clear; so the rendered
output of a frame is the same. -/
def Obligations.SuspendAndResumeKeepTheDisplay : Prop :=
  ∀ s : State, s.fg = .idle →
    ∃ t u : State, exec .drvoff s = .next t ∧ exec .drvon t = .next u
      ∧ u = { s with run := true, dir := 0, out := 0, ovfPend := false, cmpPend := false, resp := some false }
      ∧ rendered u = rendered s

/-- R30, R208: at most one command is in flight. While one is, neither a trace word's command nor a word presented on the command port is
taken. The rules put that duty on the host; that a breach ends in the refusal `commandInFlight` is the model's choice (log 29). -/
def Obligations.OneCommandInFlightAtMost : Prop :=
  ∀ (s : State) (v : CmdWord) (n : Nat) (rd : Option Ticks), s.fg = .busy v n rd →
    (∀ i : Instr, i.isLabel = false → i.wellFormed s.params.nSwt = true → exec i s = .refused .commandInFlight)
    ∧ ∀ (w : CmdWord) (rest : List Turn), s.trace = .present w :: rest → step s = .refused .commandInFlight

/-! ## The scan sequencer -/

/-- R100: a clock of the running timer counts, wraps at `TIMER_MAX`, and raises the flags from the value the counter had; a stopped timer
changes nothing. -/
def Obligations.TclkCountsAndRaisesFlags : Prop :=
  encode .tclk = 0xE0000000
  ∧ (∀ s : State, s.run = false → exec .tclk s = .next s)
  ∧ ∀ s : State, s.run = true → s.params.timerMax ≤ 255 → s.cnt.toNat ≤ s.params.timerMax →
    ∃ c : Byte, c.toNat = (if s.cnt.toNat = s.params.timerMax then 0 else s.cnt.toNat + 1)
      ∧ exec .tclk s = .next { s with
          cnt := c, ovfPend := s.ovfPend || decide (s.cnt.toNat = s.params.timerMax),
          cmpPend := s.cmpPend || decide (s.cnt = s.cmp) }

/-- R102, R104: an eligible `SCAN` applies the slot at the cursor to the port, all six bits of each register, and advances the cursor mod
25; nothing else changes. -/
def Obligations.ScanAppliesTheCursorSlot : Prop :=
  encode .scan = 0xE1000000
  ∧ ∀ (s : State) (hc : s.cursor.toNat < 25), s.run = true → s.ovfEn = true → s.ovfPend = true →
    ¬ (s.cmpEn = true ∧ s.cmpPend = true) →
    ∃ c : Byte, c.toNat = (s.cursor.toNat + 1) % 25
      ∧ exec .scan s = .next { s with
          ovfPend := false, dir := s.buf[s.cursor.toNat].active, out := s.buf[s.cursor.toNat].anode, cursor := c }

/-- R103, R104: an eligible `BLANK` forces all six levels low and leaves the drivers; nothing else changes but its flag. -/
def Obligations.BlankForcesLevelsLow : Prop :=
  encode .blank = 0xE2000000
  ∧ ∀ s : State, s.run = true → s.cmpEn = true → s.cmpPend = true →
    exec .blank s = .next { s with cmpPend := false, out := 0 }

/-- R104: `BLANK` and `SCAN` are taken only when eligible, and a `SCAN` never while `BLANK` is.
That a label which is not eligible ends in the refusal `notEligible` is the model's reading of R67 (log 6). -/
def Obligations.ServicesAreTakenOnlyWhenEligible : Prop :=
  ∀ s : State,
    (¬ (s.run = true ∧ s.cmpEn = true ∧ s.cmpPend = true) → exec .blank s = .refused (.notEligible .blank))
    ∧ (¬ (s.run = true ∧ s.ovfEn = true ∧ s.ovfPend = true) → exec .scan s = .refused (.notEligible .scan))
    ∧ (s.run = true → s.cmpEn = true → s.cmpPend = true → exec .scan s = .refused (.notEligible .scan))

/-- R45: between parts (a) and (b) of `SCAN` the pins see the new drivers with the old levels; if the levels were all low, no segment is
lit at that instant (what is lit: log 21). -/
def Obligations.ScanWritesDirBeforeOut : Prop :=
  ∀ s t : State, Legal s → exec .scan s = .next t →
    ∃ mid : State, mid = scanPartA (cursorSlot s) s ∧ t = scanPartB (cursorSlot s) mid
      ∧ mid.dir = t.dir ∧ mid.out = s.out ∧ mid.buf = s.buf ∧ mid.cursor = s.cursor
      ∧ (s.out = 0 → litNow mid = [])

/-- R35, R34: right after the `SCAN` of a slot that holds segment `k`, exactly segment `k` is lit; after the `SCAN` of `ZERO` nothing is, and
every line floats. What is lit is R35's reading of the panel (log 21). -/
def Obligations.ScanLightsExactlyItsSegment : Prop :=
  ∀ s t : State, Legal s → exec .scan s = .next t →
    (∀ k : Nat, s.params.rom.seg[k]? = some (cursorSlot s) → litNow t = [k])
    ∧ (cursorSlot s = Slot.zero → litNow t = [] ∧ pins t = [.Z, .Z, .Z, .Z, .Z, .Z])

/-- R103, R35: after `BLANK` no segment is lit, and each line is low or floats as its driver says (what is lit: log 21). -/
def Obligations.BlankLightsNothing : Prop :=
  ∀ s t : State, Legal s → exec .blank s = .next t →
    litNow t = [] ∧ ∀ i, i < 6 → lineLevel t.dir t.out i = if s.dir.getLsbD i then .L else .Z

/-- R106 and R108: one period of the reference schedule, for every brightness. It leaves the machine at the start of the next period with
the cursor one slot on; from its `SCAN` to its `BLANK` the slot is driven, which is `CMP + 1` of the `TIMER_MAX + 1` clocks. -/
def Obligations.ReferencePeriodDrivesOneSlot : Prop :=
  ∀ (s : State) (rest : List Turn), PeriodStart s →
    (∃ c : Byte, c.toNat = (s.cursor.toNat + 1) % 25
      ∧ Sys2Proof.core.run (periodOf s).length (running s (periodOf s ++ rest))
        = .next { s with cursor := c, dir := (cursorSlot s).active, out := 0, trace := rest })
    ∧ ∀ k : Nat, 1 ≤ k → k ≤ (periodOf s).length →
      ∃ u : State, Sys2Proof.core.run k (running s (periodOf s ++ rest)) = .next u
        ∧ u.dir = (cursorSlot s).active ∧ u.out = if k ≤ s.cmp.toNat + 2 then (cursorSlot s).anode else 0

/-- R107: over a frame of 25 reference periods the slots are applied in order from the cursor on, each once, and the cursor comes back: the
picture depends on the buffer alone. -/
def Obligations.FrameRendersTheBuffer : Prop :=
  ∀ (s : State) (rest : List Turn), PeriodStart s →
    let frame := (List.replicate 25 (periodOf s)).flatten
    (∀ k : Nat, k < 25 →
      ∃ u : State, Sys2Proof.core.run (k * (periodOf s).length + 1) (running s (frame ++ rest)) = .next u
        ∧ s.buf[(s.cursor.toNat + k) % 25]? = some ⟨u.dir, u.out⟩ ∧ u.buf = s.buf)
    ∧ ∃ u : State, Sys2Proof.core.run frame.length (running s (frame ++ rest)) = .next u
        ∧ u.cursor = s.cursor ∧ u.buf = s.buf ∧ u.trace = rest ∧ PeriodStart u

/-- R105 with R106: over any number of reference periods every event is serviced before the next clock, so the schedule keeps the latency bound
0 and every other; and whichever event is eligible, a schedule with one clock more than `MAX_SERVICE_LATENCY` before any service breaks the
bound, also where another event comes before it in the meantime (log 8). -/
def Obligations.ReferencePeriodKeepsTheLatencyBound : Prop :=
  (∀ (s : State) (n : Nat), PeriodStart s → s.swtPend = false →
    servicedInTime (running s (List.replicate n (periodOf s)).flatten) = true)
  ∧ ∀ (s : State) (e : Event) (rest : List Turn), s.run = true → eligible s e = true →
    servicedInTime (running s (repeated .tclk (s.params.maxServiceLatency + 1) ++ rest)) = false

/-- R72: `PERIOD`, expanded on a running machine at `CNT = 0` with nothing pending, is the clocks up to the match, `BLANK`, the clocks up to
the overflow, `SCAN`. -/
def Obligations.PeriodExpandsToOneBlankAndOneScan : Prop :=
  ∀ s : State, Legal s → s.run = true → s.ovfEn = true → s.cmpEn = true → s.cnt = 0 → s.ovfPend = false → s.cmpPend = false →
    period s = repeated .tclk (s.cmp.toNat + 1) ++ [entry .blank]
      ++ repeated .tclk (s.params.timerMax - s.cmp.toNat) ++ [entry .scan]

/-! ## Software timers -/

/-- R141: `SWT_SET` writes the count, cut to `SWT_W` bits, and arms the timer; nothing else changes. -/
def Obligations.SwtSetArmsTheTimer : Prop :=
  ∀ (s : State) (h : Byte) (ticks : Ticks), s.fg = .idle → s.swt.length = s.params.nSwt → h.toNat < s.params.nSwt →
    s.params.swtW ≤ 16 →
    decode s.params.nSwt (0x20000000 ||| (h.setWidth 32 <<< 16) ||| ticks.setWidth 32) = some (.swtSet h ticks)
    ∧ ∃ c : Ticks, c.toNat = ticks.toNat % 2 ^ s.params.swtW
      ∧ exec (.swtSet h ticks) s = .next { s with swt := s.swt.set h.toNat ⟨true, c⟩, resp := some false }

/-- R142: `SWT_IST` answers 1 exactly when the timer is active with count 0, and then makes it idle; otherwise it answers 0 and changes
nothing. -/
def Obligations.SwtIstConsumesTheExpiry : Prop :=
  ∀ (s : State) (h : Byte) (t : SwTimer), s.fg = .idle → h.toNat < s.params.nSwt → s.swt[h.toNat]? = some t →
    decode s.params.nSwt (0x21000000 ||| (h.setWidth 32 <<< 16)) = some (.swtIst h)
    ∧ (timerPhase t = .expiredPending →
        exec (.swtIst h) s = .next { s with swt := s.swt.set h.toNat ⟨false, 0⟩, resp := some true })
    ∧ (timerPhase t ≠ .expiredPending → exec (.swtIst h) s = .next { s with resp := some false })

/-- R143: `SWT_ACT` writes the flag and leaves the count. -/
def Obligations.SwtActLeavesTheCount : Prop :=
  ∀ (s : State) (h b : Byte) (t : SwTimer), s.fg = .idle → h.toNat < s.params.nSwt → s.swt[h.toNat]? = some t →
    decode s.params.nSwt (0x22000000 ||| (h.setWidth 32 <<< 16) ||| b.setWidth 32) = some (.swtAct h b)
    ∧ exec (.swtAct h b) s = .next { s with swt := s.swt.set h.toNat ⟨decide (b.toNat ≠ 0), t.count⟩, resp := some false }

/-- R145 with R67: `SWT_TICK`, when no display event is eligible, takes every count down by one, stopping at 0, leaves every `active`, clears
its flag and changes nothing else; behind an eligible display event it is not taken (log 7). -/
def Obligations.SwtTickCountsEveryTimerDown : Prop :=
  encode .swtTick = 0xE3000000
  ∧ (∀ s : State, ¬ (s.run = true ∧ s.cmpEn = true ∧ s.cmpPend = true) → ¬ (s.run = true ∧ s.ovfEn = true ∧ s.ovfPend = true) →
    ∃ ts : List SwTimer, exec .swtTick s = .next { s with swtPend := false, swt := ts } ∧ ts.length = s.swt.length
      ∧ ∀ (h : Nat) (t : SwTimer), s.swt[h]? = some t →
        ∃ u : SwTimer, ts[h]? = some u ∧ u.active = t.active ∧ u.count.toNat = t.count.toNat - 1)
  ∧ ∀ s : State, s.run = true → (s.cmpEn = true ∧ s.cmpPend = true ∨ s.ovfEn = true ∧ s.ovfPend = true) →
      exec .swtTick s = .refused (.notEligible .swtTick)

/-- R68, R62: a timer command whose handle names no timer is refused (log 5). -/
def Obligations.HandleOutOfRangeIsRefused : Prop :=
  ∀ (s : State) (h b : Byte) (ticks : Ticks), s.params.nSwt ≤ h.toNat →
    exec (.swtSet h ticks) s = .refused (.handleOutOfRange h) ∧ exec (.swtIst h) s = .refused (.handleOutOfRange h)
      ∧ exec (.swtAct h b) s = .refused (.handleOutOfRange h)

/-- R147: after `SWT_SET h, P`, with any number of ticks and polls of any timers in any order, a poll of `h` answers 1 exactly when the `P`-th
tick has been serviced and no poll of `h` before it came after that tick; every other poll of `h` answers 0. -/
def Obligations.TimerExpiresOnceAfterItsPeriod : Prop :=
  ∀ (s : State) (h : Byte) (P : Ticks) (es : List Instr) (rest : List Turn), Legal s → s.fg = .idle → h.toNat < s.params.nSwt →
    P.toNat < 2 ^ s.params.swtW → eligible s .blank = false → eligible s .scan = false →
    (∀ x ∈ es, x = .swtTick ∨ ∃ g : Byte, x = .swtIst g ∧ g.toNat < s.params.nSwt) →
    ∃ (t : State) (b : Bool),
      Sys2Proof.core.run (es.length + 2)
          (running s (entry (.swtSet h P) :: es.map entry ++ entry (.swtIst h) :: rest)) = .next t
      ∧ t.resp = some b ∧ t.trace = rest
      ∧ (b = true ↔ P.toNat ≤ ticks es ∧ ∀ pre post, es = pre ++ .swtIst h :: post → ticks pre < P.toNat)

/-- R146, R72: `MS_TO_TICKS` is the least number of whole ticks that last at least `ms`; a period of 0 is refused; and `SWT_SET_MS` is
`SWT_SET` with that number where it fits the operand, and nothing where it does not (the model's choice, log 11). -/
def Obligations.MsToTicksRoundsUp : Prop :=
  (∀ ms, msToTicks ms 0 = none)
  ∧ ∀ ms p : Nat, 1 ≤ p → ∃ n : Nat, msToTicks ms p = some n ∧ ms ≤ n * p ∧ (∀ m : Nat, ms ≤ m * p → n ≤ m)
    ∧ ∀ h : Byte, (n < 65536 → swtSetMs p h ms = some (.swtSet h (BitVec.ofNat 16 n)))
      ∧ (65536 ≤ n → swtSetMs p h ms = none)

/-! ## Whole-machine rules -/

/-- R11, R12, R80 (ii): whatever the step, a slot changes only for a content command that writes the slot's area. -/
def Obligations.SlotsChangeOnlyForTheirOwnCommands : Prop :=
  ∀ (s t : State) (j : Nat) (h : j < 25), step s = .next t → t.buf[j] ≠ s.buf[j] →
    ∃ i : Instr, acting s = some i ∧ ownSlot i j = true

/-- R13, R14: whatever the step, the cursor changes only in a `SCAN` service, by one, from 24 to 0. -/
def Obligations.CursorMovesOnlyInScan : Prop :=
  ∀ s t : State, step s = .next t → t.cursor ≠ s.cursor →
    acting s = some .scan ∧ t.cursor.toNat = (s.cursor.toNat + 1) % 25

/-- R20, R168: whatever the step, the drivers change only in `SCAN` and `DRVOFF`, the levels only in `SCAN`, `BLANK` and `DRVOFF`. -/
def Obligations.PortChangesOnlyForItsWriters : Prop :=
  ∀ s t : State, step s = .next t →
    (t.dir ≠ s.dir → acting s = some .scan ∨ (acting s = some .drvoff ∧ t.dir = 0))
    ∧ (t.out ≠ s.out → acting s = some .scan ∨ ((acting s = some .blank ∨ acting s = some .drvoff) ∧ t.out = 0))

/-- R15 to R18: whatever the step, `CNT` changes only in `TCLK` and `INIT`, `CMP` only in `BRIGHT` and `INIT`, `RUN` only in `DRVON`,
`DRVOFF` and, with `INIT_RUN`, `INIT`; the enables only go up, in `INIT`. -/
def Obligations.TimerRegistersChangeOnlyForTheirWriters : Prop :=
  ∀ s t : State, step s = .next t →
    (t.cnt ≠ s.cnt → acting s = some .tclk ∨ acting s = some .init)
    ∧ (t.cmp ≠ s.cmp → acting s = some .init ∨ ∃ p, acting s = some (.bright p))
    ∧ (t.run ≠ s.run → acting s = some .drvon ∨ acting s = some .drvoff ∨ (acting s = some .init ∧ s.params.initRun = true))
    ∧ (t.ovfEn ≠ s.ovfEn → acting s = some .init ∧ t.ovfEn = true)
    ∧ (t.cmpEn ≠ s.cmpEn → acting s = some .init ∧ t.cmpEn = true)

/-- R19, R162, R144: whatever the step, a display flag rises only in `TCLK` and falls only in its own service, `DRVON` and `INIT`; `SWT_PEND`
rises only by the low-rate source and falls only in `SWT_TICK`; and the low-rate source sets `SWT_PEND` and changes nothing else. -/
def Obligations.PendingFlagsRiseAndFallByRule : Prop :=
  (∀ s t : State, step s = .next t →
    (s.ovfPend = false → t.ovfPend = true → acting s = some .tclk)
    ∧ (s.ovfPend = true → t.ovfPend = false → acting s = some .scan ∨ acting s = some .drvon ∨ acting s = some .init)
    ∧ (s.cmpPend = false → t.cmpPend = true → acting s = some .tclk)
    ∧ (s.cmpPend = true → t.cmpPend = false → acting s = some .blank ∨ acting s = some .drvon ∨ acting s = some .init)
    ∧ (s.swtPend = false → t.swtPend = true → ∃ rest, s.trace = .lowRate :: rest)
    ∧ (s.swtPend = true → t.swtPend = false → acting s = some .swtTick))
  ∧ ∀ (s : State) (rest : List Turn), s.trace = .lowRate :: rest → step s = .next { s with swtPend := true, trace := rest }

/-- R29, R140, R168: whatever the step, a timer's flag changes only for a timer command with its handle, its count only for `SWT_SET` with its
handle and for `SWT_TICK`; no timer comes or goes. -/
def Obligations.TimersChangeOnlyForTheirOperations : Prop :=
  ∀ s t : State, step s = .next t → t.swt.length = s.swt.length
    ∧ ∀ (k : Nat) (a b : SwTimer), s.swt[k]? = some a → t.swt[k]? = some b →
      (b.active ≠ a.active → ∃ h : Byte, h.toNat = k
        ∧ (acting s = some (.swtIst h) ∨ (∃ x, acting s = some (.swtSet h x)) ∨ ∃ x, acting s = some (.swtAct h x)))
      ∧ (b.count ≠ a.count → acting s = some .swtTick ∨ ∃ h : Byte, h.toNat = k ∧ ∃ x, acting s = some (.swtSet h x))

/-- R22, R31, R32: no step changes the ROM or any other parameter. -/
def Obligations.ParametersNeverChange : Prop :=
  ∀ (k : Nat) (s t : State), Sys2Proof.core.run k s = .next t → t.params = s.params

/-- R110, R165: no hardware step writes the buffer, `CMP`, `RUN`, the enables, the `active` flags, the command in flight or the response;
and the display steps share no state with `SWT_TICK`. -/
def Obligations.EventsNeverTouchTheHostsState : Prop :=
  ∀ (s t : State) (i : Instr), i.isLabel = true → exec i s = .next t →
    t.buf = s.buf ∧ t.cmp = s.cmp ∧ t.run = s.run ∧ t.ovfEn = s.ovfEn ∧ t.cmpEn = s.cmpEn ∧ t.fg = s.fg ∧ t.resp = s.resp
      ∧ t.params = s.params ∧ t.swt.map SwTimer.active = s.swt.map SwTimer.active
      ∧ (i = .swtTick → t.cnt = s.cnt ∧ t.dir = s.dir ∧ t.out = s.out ∧ t.cursor = s.cursor ∧ t.ovfPend = s.ovfPend
          ∧ t.cmpPend = s.cmpPend)
      ∧ (i ≠ .swtTick → t.swt = s.swt ∧ t.swtPend = s.swtPend)
end

