-- ==== Sys2Proof/Laws/Decode.lean ====
section
/-! SUPPORT. The fields of a command word: a word is its three fields, and a word built from fields has them. -/

namespace Sys2Proof

theorem opOf_cmdWord (op h : Byte) (arg : Ticks) : opOf (cmdWord op h arg) = op := by
  unfold opOf cmdWord
  ext i hi
  simp only [BitVec.getElem_extractLsb', BitVec.getLsbD_append]
  have h1 : ¬ 24 + i < 16 := by omega
  have h2 : ¬ 24 + i - 16 < 8 := by omega
  have h3 : 24 + i - 16 - 8 = i := by omega
  simp [h1, h2, h3, BitVec.getLsbD_eq_getElem hi]

theorem hOf_cmdWord (op h : Byte) (arg : Ticks) : hOf (cmdWord op h arg) = h := by
  unfold hOf cmdWord
  ext i hi
  simp only [BitVec.getElem_extractLsb', BitVec.getLsbD_append]
  have h1 : ¬ 16 + i < 16 := by omega
  have h2 : 16 + i - 16 = i := by omega
  simp [h2, hi]

theorem argOf_cmdWord (op h : Byte) (arg : Ticks) : argOf (cmdWord op h arg) = arg := by
  unfold argOf cmdWord
  ext i hi
  simp only [BitVec.getElem_extractLsb', BitVec.getLsbD_append]
  simp [hi]

theorem argHi_cmdWord (op h : Byte) (arg : Ticks) : argHi (cmdWord op h arg) = arg.extractLsb' 8 8 := by
  unfold argHi cmdWord
  ext i hi
  simp only [BitVec.getElem_extractLsb', BitVec.getLsbD_append]
  have h1 : 8 + i < 16 := by omega
  simp [h1]

theorem argLo_cmdWord (op h : Byte) (arg : Ticks) : argLo (cmdWord op h arg) = arg.extractLsb' 0 8 := by
  unfold argLo cmdWord
  ext i hi
  simp only [BitVec.getElem_extractLsb', BitVec.getLsbD_append]
  have h1 : i < 16 := by omega
  simp [h1]

theorem argOfByte_hi (b : Byte) : (argOfByte b).extractLsb' 8 8 = 0 := by
  unfold argOfByte
  ext i hi
  simp only [BitVec.getElem_extractLsb', BitVec.getLsbD_append]
  simp

theorem argOfByte_lo (b : Byte) : (argOfByte b).extractLsb' 0 8 = b := by
  unfold argOfByte
  ext i hi
  simp only [BitVec.getElem_extractLsb', BitVec.getLsbD_append]
  simp [hi]

/-- A word is the word of its fields (R60). -/
theorem cmdWord_fields (w : CmdWord) : cmdWord (opOf w) (hOf w) (argOf w) = w := by
  unfold cmdWord opOf hOf argOf
  ext i hi
  simp only [BitVec.getElem_append, BitVec.getElem_extractLsb']
  split
  · simp [BitVec.getLsbD_eq_getElem hi]
  · split
    · rw [show 16 + (i - 16) = i by omega, BitVec.getLsbD_eq_getElem hi]
    · rw [show 24 + (i - 16 - 8) = i by omega, BitVec.getLsbD_eq_getElem hi]

/-- An `ARG` whose high byte is 0 is its low byte (R62). -/
theorem argOf_of_argHi_zero (w : CmdWord) (h : argHi w = 0) : argOf w = argOfByte (argLo w) := by
  unfold argOf argOfByte argLo
  unfold argHi at h
  apply BitVec.eq_of_getLsbD_eq
  intro i hi
  rw [BitVec.getLsbD_append]
  by_cases h8 : i < 8
  · simp [h8, hi]
  · have hb := congrArg (fun v => v.getLsbD (i - 8)) h
    simp only [BitVec.getLsbD_extractLsb', show 8 + (i - 8) = i by omega] at hb
    simpa [h8, hi, show i - 8 < 8 by omega] using hb

/-- What decodes is an instruction of this machine (R68). -/
theorem wellFormed_of_decode {n : Nat} {w : CmdWord} {i : Instr} (h : decode n w = some i) : i.wellFormed n = true := by
  unfold decode at h
  split at h <;> (try cases h)
  all_goals
    simp only [takeNone, takeByte, takeHandleTicks, takeHandle, takeHandleByte] at h
    split at h <;> (try cases h)
    rename_i hc
    simp_all [Instr.wellFormed]

end Sys2Proof
end

