-- ==== Sys2Proof/Laws/Rom.lean ====
section
/-! SUPPORT. What a well-formed image gives: every read inside a table's bounds answers, with `ZERO` or a segment of the area (R24,
R28), and the bounds the row choices keep to (R43, R83). -/

namespace Sys2Proof.Machine

/-- The numeric constraints of R5. -/
theorem paramsWf_bounds {p : Params} (h : paramsWf p = true) :
    1 ≤ p.timerMax ∧ p.timerMax ≤ 255 ∧ 13 ≤ p.tensRows ∧ 12 ≤ p.unitsRows ∧ 1 ≤ p.fillRows ∧ 1 ≤ p.dropletRows
      ∧ p.initBrightPct ≤ 255 ∧ p.nSwt ≤ 256 ∧ 1 ≤ p.swtW ∧ p.swtW ≤ 16 := by
  simp only [paramsWf, Bool.and_eq_true, decide_eq_true_eq] at h
  tauto

/-- The Segment Table's constraints (R22). -/
theorem paramsWf_seg {p : Params} (h : paramsWf p = true) :
    p.rom.seg.length = 25 ∧ (∀ w ∈ p.rom.seg, segWf w = true) ∧ p.rom.seg.Nodup := by
  simp only [paramsWf, Bool.and_eq_true, decide_eq_true_eq, List.all_eq_true] at h
  tauto

/-- The rows R25 to R27 ask for are there. -/
theorem paramsWf_content {p : Params} (h : paramsWf p = true) : contentWf p.rom = true := by
  simp only [paramsWf, Bool.and_eq_true] at h
  exact h.2

/-- Every table passes its part of the contract (R28). -/
theorem paramsWf_table {p : Params} (h : paramsWf p = true) (a : Area) : tableWf p.rom a (areaRows p a) = true := by
  simp only [paramsWf, Bool.and_eq_true, List.all_eq_true] at h
  exact h.1.2 a (by cases a <;> simp [allAreas])

/-- A well-formed table answers every read inside its bounds, with `ZERO` or a segment of its area (R24, R43). -/
theorem romRead_of_wf {p : Params} (h : paramsWf p = true) {a : Area} {r j : Nat} (hr : r < areaRows p a)
    (hj : j < a.size) :
    ∃ w, romRead p.rom a r j = some w ∧ (w = Slot.zero ∨ w ∈ areaSegs p.rom a) := by
  have ht := paramsWf_table h a
  simp only [tableWf, Bool.and_eq_true, decide_eq_true_eq, List.all_eq_true, rowWf] at ht
  obtain ⟨hlen, hrows⟩ := ht
  have hr' : r < (romTable p.rom a).length := by omega
  obtain ⟨⟨hcols, hcells⟩, -⟩ := hrows _ (List.getElem_mem hr')
  have hj' : j < ((romTable p.rom a)[r]).length := by omega
  refine ⟨((romTable p.rom a)[r])[j], by simp [romRead, hr', hj'], ?_⟩
  simpa using hcells _ (List.getElem_mem hj')

/-- A read that answers is inside the table. -/
theorem romRead_legal {p : Params} (h : paramsWf p = true) {a : Area} {r j : Nat} {w : Slot}
    (hw : romRead p.rom a r j = some w) : j < a.size ∧ (w = Slot.zero ∨ w ∈ areaSegs p.rom a) := by
  have ht := paramsWf_table h a
  simp only [tableWf, Bool.and_eq_true, decide_eq_true_eq, List.all_eq_true, rowWf] at ht
  obtain ⟨-, hrows⟩ := ht
  unfold romRead at hw
  split at hw
  · rename_i cells hc
    obtain ⟨⟨hcols, hcells⟩, -⟩ := hrows _ (List.mem_of_getElem? hc)
    obtain ⟨hj, rfl⟩ := List.getElem?_eq_some_iff.mp hw
    exact ⟨by omega, by simpa using hcells _ (List.getElem_mem hj)⟩
  · cases hw

/-- The rows of `NUM` are rows of the digit tables (R83: "it must never index outside its tables"). -/
theorem numRows_lt (v : Byte) : (numRows v).1 < 13 ∧ (numRows v).2 < 12 := by
  unfold numRows
  split
  · exact ⟨by omega, by simp only; omega⟩
  · split
    · exact ⟨by omega, by omega⟩
    · refine ⟨?_, by simp only; omega⟩
      simp only
      split <;> omega

theorem onOffRow_lt (b : Byte) : onOffRow b < 2 := by unfold onOffRow; split <;> omega

theorem levelRow_lt (level : Byte) {rows : Nat} (h : 1 ≤ rows) : levelRow level rows < rows := Nat.mod_lt _ h

/-- The brightness map never leaves `0..TIMER_MAX` (R122). -/
theorem brightMap_le (timerMax pct : Nat) : brightMap timerMax pct ≤ timerMax := by
  unfold brightMap
  split
  · exact Nat.le_refl _
  · have h : pct * timerMax ≤ 100 * timerMax := Nat.mul_le_mul_right _ (by omega)
    omega

/-- An area's slots are its own (R11). -/
theorem areaOf_base_add (a : Area) {j : Nat} (h : j < a.size) : areaOf (a.base + j) = a := by
  cases a <;> simp only [Area.size] at h <;> interval_cases j <;> rfl

theorem base_add_lt (a : Area) {j : Nat} (h : j < a.size) : a.base + j < 25 := by
  cases a <;> simp only [Area.size, Area.base] at h ⊢ <;> omega

end Sys2Proof.Machine
end

