-- ==== Sys2Proof/Laws/State.lean ====
section
/-! SUPPORT. One lemma per field per update of the state: what each named operation leaves in each field. -/

namespace Sys2Proof.Machine

/-! ## `writeSlot` -/

@[simp] theorem writeSlot_params (s : State) (i : Nat) (w : Slot) : (writeSlot s i w).params = s.params := rfl
@[simp] theorem writeSlot_buf (s : State) (i : Nat) (w : Slot) : (writeSlot s i w).buf = s.buf.setIfInBounds i w := rfl
@[simp] theorem writeSlot_cursor (s : State) (i : Nat) (w : Slot) : (writeSlot s i w).cursor = s.cursor := rfl
@[simp] theorem writeSlot_cnt (s : State) (i : Nat) (w : Slot) : (writeSlot s i w).cnt = s.cnt := rfl
@[simp] theorem writeSlot_cmp (s : State) (i : Nat) (w : Slot) : (writeSlot s i w).cmp = s.cmp := rfl
@[simp] theorem writeSlot_run (s : State) (i : Nat) (w : Slot) : (writeSlot s i w).run = s.run := rfl
@[simp] theorem writeSlot_ovfEn (s : State) (i : Nat) (w : Slot) : (writeSlot s i w).ovfEn = s.ovfEn := rfl
@[simp] theorem writeSlot_cmpEn (s : State) (i : Nat) (w : Slot) : (writeSlot s i w).cmpEn = s.cmpEn := rfl
@[simp] theorem writeSlot_ovfPend (s : State) (i : Nat) (w : Slot) : (writeSlot s i w).ovfPend = s.ovfPend := rfl
@[simp] theorem writeSlot_cmpPend (s : State) (i : Nat) (w : Slot) : (writeSlot s i w).cmpPend = s.cmpPend := rfl
@[simp] theorem writeSlot_dir (s : State) (i : Nat) (w : Slot) : (writeSlot s i w).dir = s.dir := rfl
@[simp] theorem writeSlot_out (s : State) (i : Nat) (w : Slot) : (writeSlot s i w).out = s.out := rfl
@[simp] theorem writeSlot_swt (s : State) (i : Nat) (w : Slot) : (writeSlot s i w).swt = s.swt := rfl
@[simp] theorem writeSlot_swtPend (s : State) (i : Nat) (w : Slot) : (writeSlot s i w).swtPend = s.swtPend := rfl
@[simp] theorem writeSlot_fg (s : State) (i : Nat) (w : Slot) : (writeSlot s i w).fg = s.fg := rfl
@[simp] theorem writeSlot_resp (s : State) (i : Nat) (w : Slot) : (writeSlot s i w).resp = s.resp := rfl
@[simp] theorem writeSlot_trace (s : State) (i : Nat) (w : Slot) : (writeSlot s i w).trace = s.trace := rfl

/-! ## `setDir` -/

@[simp] theorem setDir_params (s : State) (m : Mask) : (setDir s m).params = s.params := rfl
@[simp] theorem setDir_buf (s : State) (m : Mask) : (setDir s m).buf = s.buf := rfl
@[simp] theorem setDir_cursor (s : State) (m : Mask) : (setDir s m).cursor = s.cursor := rfl
@[simp] theorem setDir_cnt (s : State) (m : Mask) : (setDir s m).cnt = s.cnt := rfl
@[simp] theorem setDir_cmp (s : State) (m : Mask) : (setDir s m).cmp = s.cmp := rfl
@[simp] theorem setDir_run (s : State) (m : Mask) : (setDir s m).run = s.run := rfl
@[simp] theorem setDir_ovfEn (s : State) (m : Mask) : (setDir s m).ovfEn = s.ovfEn := rfl
@[simp] theorem setDir_cmpEn (s : State) (m : Mask) : (setDir s m).cmpEn = s.cmpEn := rfl
@[simp] theorem setDir_ovfPend (s : State) (m : Mask) : (setDir s m).ovfPend = s.ovfPend := rfl
@[simp] theorem setDir_cmpPend (s : State) (m : Mask) : (setDir s m).cmpPend = s.cmpPend := rfl
@[simp] theorem setDir_dir (s : State) (m : Mask) : (setDir s m).dir = m := rfl
@[simp] theorem setDir_out (s : State) (m : Mask) : (setDir s m).out = s.out := rfl
@[simp] theorem setDir_swt (s : State) (m : Mask) : (setDir s m).swt = s.swt := rfl
@[simp] theorem setDir_swtPend (s : State) (m : Mask) : (setDir s m).swtPend = s.swtPend := rfl
@[simp] theorem setDir_fg (s : State) (m : Mask) : (setDir s m).fg = s.fg := rfl
@[simp] theorem setDir_resp (s : State) (m : Mask) : (setDir s m).resp = s.resp := rfl
@[simp] theorem setDir_trace (s : State) (m : Mask) : (setDir s m).trace = s.trace := rfl

/-! ## `setOut` -/

@[simp] theorem setOut_params (s : State) (m : Mask) : (setOut s m).params = s.params := rfl
@[simp] theorem setOut_buf (s : State) (m : Mask) : (setOut s m).buf = s.buf := rfl
@[simp] theorem setOut_cursor (s : State) (m : Mask) : (setOut s m).cursor = s.cursor := rfl
@[simp] theorem setOut_cnt (s : State) (m : Mask) : (setOut s m).cnt = s.cnt := rfl
@[simp] theorem setOut_cmp (s : State) (m : Mask) : (setOut s m).cmp = s.cmp := rfl
@[simp] theorem setOut_run (s : State) (m : Mask) : (setOut s m).run = s.run := rfl
@[simp] theorem setOut_ovfEn (s : State) (m : Mask) : (setOut s m).ovfEn = s.ovfEn := rfl
@[simp] theorem setOut_cmpEn (s : State) (m : Mask) : (setOut s m).cmpEn = s.cmpEn := rfl
@[simp] theorem setOut_ovfPend (s : State) (m : Mask) : (setOut s m).ovfPend = s.ovfPend := rfl
@[simp] theorem setOut_cmpPend (s : State) (m : Mask) : (setOut s m).cmpPend = s.cmpPend := rfl
@[simp] theorem setOut_dir (s : State) (m : Mask) : (setOut s m).dir = s.dir := rfl
@[simp] theorem setOut_out (s : State) (m : Mask) : (setOut s m).out = m := rfl
@[simp] theorem setOut_swt (s : State) (m : Mask) : (setOut s m).swt = s.swt := rfl
@[simp] theorem setOut_swtPend (s : State) (m : Mask) : (setOut s m).swtPend = s.swtPend := rfl
@[simp] theorem setOut_fg (s : State) (m : Mask) : (setOut s m).fg = s.fg := rfl
@[simp] theorem setOut_resp (s : State) (m : Mask) : (setOut s m).resp = s.resp := rfl
@[simp] theorem setOut_trace (s : State) (m : Mask) : (setOut s m).trace = s.trace := rfl

/-! ## `advanceCursor` -/

@[simp] theorem advanceCursor_params (s : State) : (advanceCursor s).params = s.params := rfl
@[simp] theorem advanceCursor_buf (s : State) : (advanceCursor s).buf = s.buf := rfl
@[simp] theorem advanceCursor_cursor (s : State) : (advanceCursor s).cursor = BitVec.ofNat 8 (incMod s.cursor.toNat 25) := rfl
@[simp] theorem advanceCursor_cnt (s : State) : (advanceCursor s).cnt = s.cnt := rfl
@[simp] theorem advanceCursor_cmp (s : State) : (advanceCursor s).cmp = s.cmp := rfl
@[simp] theorem advanceCursor_run (s : State) : (advanceCursor s).run = s.run := rfl
@[simp] theorem advanceCursor_ovfEn (s : State) : (advanceCursor s).ovfEn = s.ovfEn := rfl
@[simp] theorem advanceCursor_cmpEn (s : State) : (advanceCursor s).cmpEn = s.cmpEn := rfl
@[simp] theorem advanceCursor_ovfPend (s : State) : (advanceCursor s).ovfPend = s.ovfPend := rfl
@[simp] theorem advanceCursor_cmpPend (s : State) : (advanceCursor s).cmpPend = s.cmpPend := rfl
@[simp] theorem advanceCursor_dir (s : State) : (advanceCursor s).dir = s.dir := rfl
@[simp] theorem advanceCursor_out (s : State) : (advanceCursor s).out = s.out := rfl
@[simp] theorem advanceCursor_swt (s : State) : (advanceCursor s).swt = s.swt := rfl
@[simp] theorem advanceCursor_swtPend (s : State) : (advanceCursor s).swtPend = s.swtPend := rfl
@[simp] theorem advanceCursor_fg (s : State) : (advanceCursor s).fg = s.fg := rfl
@[simp] theorem advanceCursor_resp (s : State) : (advanceCursor s).resp = s.resp := rfl
@[simp] theorem advanceCursor_trace (s : State) : (advanceCursor s).trace = s.trace := rfl

/-! ## `setCount` -/

@[simp] theorem setCount_params (s : State) (v : Byte) : (setCount s v).params = s.params := rfl
@[simp] theorem setCount_buf (s : State) (v : Byte) : (setCount s v).buf = s.buf := rfl
@[simp] theorem setCount_cursor (s : State) (v : Byte) : (setCount s v).cursor = s.cursor := rfl
@[simp] theorem setCount_cnt (s : State) (v : Byte) : (setCount s v).cnt = v := rfl
@[simp] theorem setCount_cmp (s : State) (v : Byte) : (setCount s v).cmp = s.cmp := rfl
@[simp] theorem setCount_run (s : State) (v : Byte) : (setCount s v).run = s.run := rfl
@[simp] theorem setCount_ovfEn (s : State) (v : Byte) : (setCount s v).ovfEn = s.ovfEn := rfl
@[simp] theorem setCount_cmpEn (s : State) (v : Byte) : (setCount s v).cmpEn = s.cmpEn := rfl
@[simp] theorem setCount_ovfPend (s : State) (v : Byte) : (setCount s v).ovfPend = s.ovfPend := rfl
@[simp] theorem setCount_cmpPend (s : State) (v : Byte) : (setCount s v).cmpPend = s.cmpPend := rfl
@[simp] theorem setCount_dir (s : State) (v : Byte) : (setCount s v).dir = s.dir := rfl
@[simp] theorem setCount_out (s : State) (v : Byte) : (setCount s v).out = s.out := rfl
@[simp] theorem setCount_swt (s : State) (v : Byte) : (setCount s v).swt = s.swt := rfl
@[simp] theorem setCount_swtPend (s : State) (v : Byte) : (setCount s v).swtPend = s.swtPend := rfl
@[simp] theorem setCount_fg (s : State) (v : Byte) : (setCount s v).fg = s.fg := rfl
@[simp] theorem setCount_resp (s : State) (v : Byte) : (setCount s v).resp = s.resp := rfl
@[simp] theorem setCount_trace (s : State) (v : Byte) : (setCount s v).trace = s.trace := rfl

/-! ## `setBrightness` -/

@[simp] theorem setBrightness_params (s : State) (pct : Nat) : (setBrightness s pct).params = s.params := rfl
@[simp] theorem setBrightness_buf (s : State) (pct : Nat) : (setBrightness s pct).buf = s.buf := rfl
@[simp] theorem setBrightness_cursor (s : State) (pct : Nat) : (setBrightness s pct).cursor = s.cursor := rfl
@[simp] theorem setBrightness_cnt (s : State) (pct : Nat) : (setBrightness s pct).cnt = s.cnt := rfl
@[simp] theorem setBrightness_cmp (s : State) (pct : Nat) : (setBrightness s pct).cmp = BitVec.ofNat 8 (brightMap s.params.timerMax pct) := rfl
@[simp] theorem setBrightness_run (s : State) (pct : Nat) : (setBrightness s pct).run = s.run := rfl
@[simp] theorem setBrightness_ovfEn (s : State) (pct : Nat) : (setBrightness s pct).ovfEn = s.ovfEn := rfl
@[simp] theorem setBrightness_cmpEn (s : State) (pct : Nat) : (setBrightness s pct).cmpEn = s.cmpEn := rfl
@[simp] theorem setBrightness_ovfPend (s : State) (pct : Nat) : (setBrightness s pct).ovfPend = s.ovfPend := rfl
@[simp] theorem setBrightness_cmpPend (s : State) (pct : Nat) : (setBrightness s pct).cmpPend = s.cmpPend := rfl
@[simp] theorem setBrightness_dir (s : State) (pct : Nat) : (setBrightness s pct).dir = s.dir := rfl
@[simp] theorem setBrightness_out (s : State) (pct : Nat) : (setBrightness s pct).out = s.out := rfl
@[simp] theorem setBrightness_swt (s : State) (pct : Nat) : (setBrightness s pct).swt = s.swt := rfl
@[simp] theorem setBrightness_swtPend (s : State) (pct : Nat) : (setBrightness s pct).swtPend = s.swtPend := rfl
@[simp] theorem setBrightness_fg (s : State) (pct : Nat) : (setBrightness s pct).fg = s.fg := rfl
@[simp] theorem setBrightness_resp (s : State) (pct : Nat) : (setBrightness s pct).resp = s.resp := rfl
@[simp] theorem setBrightness_trace (s : State) (pct : Nat) : (setBrightness s pct).trace = s.trace := rfl

/-! ## `setRun` -/

@[simp] theorem setRun_params (s : State) (b : Bool) : (setRun s b).params = s.params := rfl
@[simp] theorem setRun_buf (s : State) (b : Bool) : (setRun s b).buf = s.buf := rfl
@[simp] theorem setRun_cursor (s : State) (b : Bool) : (setRun s b).cursor = s.cursor := rfl
@[simp] theorem setRun_cnt (s : State) (b : Bool) : (setRun s b).cnt = s.cnt := rfl
@[simp] theorem setRun_cmp (s : State) (b : Bool) : (setRun s b).cmp = s.cmp := rfl
@[simp] theorem setRun_run (s : State) (b : Bool) : (setRun s b).run = b := rfl
@[simp] theorem setRun_ovfEn (s : State) (b : Bool) : (setRun s b).ovfEn = s.ovfEn := rfl
@[simp] theorem setRun_cmpEn (s : State) (b : Bool) : (setRun s b).cmpEn = s.cmpEn := rfl
@[simp] theorem setRun_ovfPend (s : State) (b : Bool) : (setRun s b).ovfPend = s.ovfPend := rfl
@[simp] theorem setRun_cmpPend (s : State) (b : Bool) : (setRun s b).cmpPend = s.cmpPend := rfl
@[simp] theorem setRun_dir (s : State) (b : Bool) : (setRun s b).dir = s.dir := rfl
@[simp] theorem setRun_out (s : State) (b : Bool) : (setRun s b).out = s.out := rfl
@[simp] theorem setRun_swt (s : State) (b : Bool) : (setRun s b).swt = s.swt := rfl
@[simp] theorem setRun_swtPend (s : State) (b : Bool) : (setRun s b).swtPend = s.swtPend := rfl
@[simp] theorem setRun_fg (s : State) (b : Bool) : (setRun s b).fg = s.fg := rfl
@[simp] theorem setRun_resp (s : State) (b : Bool) : (setRun s b).resp = s.resp := rfl
@[simp] theorem setRun_trace (s : State) (b : Bool) : (setRun s b).trace = s.trace := rfl

/-! ## `enableEvents` -/

@[simp] theorem enableEvents_params (s : State) : (enableEvents s).params = s.params := rfl
@[simp] theorem enableEvents_buf (s : State) : (enableEvents s).buf = s.buf := rfl
@[simp] theorem enableEvents_cursor (s : State) : (enableEvents s).cursor = s.cursor := rfl
@[simp] theorem enableEvents_cnt (s : State) : (enableEvents s).cnt = s.cnt := rfl
@[simp] theorem enableEvents_cmp (s : State) : (enableEvents s).cmp = s.cmp := rfl
@[simp] theorem enableEvents_run (s : State) : (enableEvents s).run = s.run := rfl
@[simp] theorem enableEvents_ovfEn (s : State) : (enableEvents s).ovfEn = true := rfl
@[simp] theorem enableEvents_cmpEn (s : State) : (enableEvents s).cmpEn = true := rfl
@[simp] theorem enableEvents_ovfPend (s : State) : (enableEvents s).ovfPend = s.ovfPend := rfl
@[simp] theorem enableEvents_cmpPend (s : State) : (enableEvents s).cmpPend = s.cmpPend := rfl
@[simp] theorem enableEvents_dir (s : State) : (enableEvents s).dir = s.dir := rfl
@[simp] theorem enableEvents_out (s : State) : (enableEvents s).out = s.out := rfl
@[simp] theorem enableEvents_swt (s : State) : (enableEvents s).swt = s.swt := rfl
@[simp] theorem enableEvents_swtPend (s : State) : (enableEvents s).swtPend = s.swtPend := rfl
@[simp] theorem enableEvents_fg (s : State) : (enableEvents s).fg = s.fg := rfl
@[simp] theorem enableEvents_resp (s : State) : (enableEvents s).resp = s.resp := rfl
@[simp] theorem enableEvents_trace (s : State) : (enableEvents s).trace = s.trace := rfl

/-! ## `clearPending` -/

@[simp] theorem clearPending_params (s : State) : (clearPending s).params = s.params := rfl
@[simp] theorem clearPending_buf (s : State) : (clearPending s).buf = s.buf := rfl
@[simp] theorem clearPending_cursor (s : State) : (clearPending s).cursor = s.cursor := rfl
@[simp] theorem clearPending_cnt (s : State) : (clearPending s).cnt = s.cnt := rfl
@[simp] theorem clearPending_cmp (s : State) : (clearPending s).cmp = s.cmp := rfl
@[simp] theorem clearPending_run (s : State) : (clearPending s).run = s.run := rfl
@[simp] theorem clearPending_ovfEn (s : State) : (clearPending s).ovfEn = s.ovfEn := rfl
@[simp] theorem clearPending_cmpEn (s : State) : (clearPending s).cmpEn = s.cmpEn := rfl
@[simp] theorem clearPending_ovfPend (s : State) : (clearPending s).ovfPend = false := rfl
@[simp] theorem clearPending_cmpPend (s : State) : (clearPending s).cmpPend = false := rfl
@[simp] theorem clearPending_dir (s : State) : (clearPending s).dir = s.dir := rfl
@[simp] theorem clearPending_out (s : State) : (clearPending s).out = s.out := rfl
@[simp] theorem clearPending_swt (s : State) : (clearPending s).swt = s.swt := rfl
@[simp] theorem clearPending_swtPend (s : State) : (clearPending s).swtPend = s.swtPend := rfl
@[simp] theorem clearPending_fg (s : State) : (clearPending s).fg = s.fg := rfl
@[simp] theorem clearPending_resp (s : State) : (clearPending s).resp = s.resp := rfl
@[simp] theorem clearPending_trace (s : State) : (clearPending s).trace = s.trace := rfl

/-! ## `raisePending` -/

@[simp] theorem raisePending_params (s : State) (a b : Bool) : (raisePending s a b).params = s.params := rfl
@[simp] theorem raisePending_buf (s : State) (a b : Bool) : (raisePending s a b).buf = s.buf := rfl
@[simp] theorem raisePending_cursor (s : State) (a b : Bool) : (raisePending s a b).cursor = s.cursor := rfl
@[simp] theorem raisePending_cnt (s : State) (a b : Bool) : (raisePending s a b).cnt = s.cnt := rfl
@[simp] theorem raisePending_cmp (s : State) (a b : Bool) : (raisePending s a b).cmp = s.cmp := rfl
@[simp] theorem raisePending_run (s : State) (a b : Bool) : (raisePending s a b).run = s.run := rfl
@[simp] theorem raisePending_ovfEn (s : State) (a b : Bool) : (raisePending s a b).ovfEn = s.ovfEn := rfl
@[simp] theorem raisePending_cmpEn (s : State) (a b : Bool) : (raisePending s a b).cmpEn = s.cmpEn := rfl
@[simp] theorem raisePending_ovfPend (s : State) (a b : Bool) : (raisePending s a b).ovfPend = (s.ovfPend || a) := rfl
@[simp] theorem raisePending_cmpPend (s : State) (a b : Bool) : (raisePending s a b).cmpPend = (s.cmpPend || b) := rfl
@[simp] theorem raisePending_dir (s : State) (a b : Bool) : (raisePending s a b).dir = s.dir := rfl
@[simp] theorem raisePending_out (s : State) (a b : Bool) : (raisePending s a b).out = s.out := rfl
@[simp] theorem raisePending_swt (s : State) (a b : Bool) : (raisePending s a b).swt = s.swt := rfl
@[simp] theorem raisePending_swtPend (s : State) (a b : Bool) : (raisePending s a b).swtPend = s.swtPend := rfl
@[simp] theorem raisePending_fg (s : State) (a b : Bool) : (raisePending s a b).fg = s.fg := rfl
@[simp] theorem raisePending_resp (s : State) (a b : Bool) : (raisePending s a b).resp = s.resp := rfl
@[simp] theorem raisePending_trace (s : State) (a b : Bool) : (raisePending s a b).trace = s.trace := rfl

/-! ## `setTimerCount` -/

@[simp] theorem setTimerCount_params (s : State) (h : Nat) (c : Ticks) : (setTimerCount s h c).params = s.params := rfl
@[simp] theorem setTimerCount_buf (s : State) (h : Nat) (c : Ticks) : (setTimerCount s h c).buf = s.buf := rfl
@[simp] theorem setTimerCount_cursor (s : State) (h : Nat) (c : Ticks) : (setTimerCount s h c).cursor = s.cursor := rfl
@[simp] theorem setTimerCount_cnt (s : State) (h : Nat) (c : Ticks) : (setTimerCount s h c).cnt = s.cnt := rfl
@[simp] theorem setTimerCount_cmp (s : State) (h : Nat) (c : Ticks) : (setTimerCount s h c).cmp = s.cmp := rfl
@[simp] theorem setTimerCount_run (s : State) (h : Nat) (c : Ticks) : (setTimerCount s h c).run = s.run := rfl
@[simp] theorem setTimerCount_ovfEn (s : State) (h : Nat) (c : Ticks) : (setTimerCount s h c).ovfEn = s.ovfEn := rfl
@[simp] theorem setTimerCount_cmpEn (s : State) (h : Nat) (c : Ticks) : (setTimerCount s h c).cmpEn = s.cmpEn := rfl
@[simp] theorem setTimerCount_ovfPend (s : State) (h : Nat) (c : Ticks) : (setTimerCount s h c).ovfPend = s.ovfPend := rfl
@[simp] theorem setTimerCount_cmpPend (s : State) (h : Nat) (c : Ticks) : (setTimerCount s h c).cmpPend = s.cmpPend := rfl
@[simp] theorem setTimerCount_dir (s : State) (h : Nat) (c : Ticks) : (setTimerCount s h c).dir = s.dir := rfl
@[simp] theorem setTimerCount_out (s : State) (h : Nat) (c : Ticks) : (setTimerCount s h c).out = s.out := rfl
@[simp] theorem setTimerCount_swt (s : State) (h : Nat) (c : Ticks) : (setTimerCount s h c).swt = s.swt.modify h fun t => { t with count := c } := rfl
@[simp] theorem setTimerCount_swtPend (s : State) (h : Nat) (c : Ticks) : (setTimerCount s h c).swtPend = s.swtPend := rfl
@[simp] theorem setTimerCount_fg (s : State) (h : Nat) (c : Ticks) : (setTimerCount s h c).fg = s.fg := rfl
@[simp] theorem setTimerCount_resp (s : State) (h : Nat) (c : Ticks) : (setTimerCount s h c).resp = s.resp := rfl
@[simp] theorem setTimerCount_trace (s : State) (h : Nat) (c : Ticks) : (setTimerCount s h c).trace = s.trace := rfl

/-! ## `setTimerActive` -/

@[simp] theorem setTimerActive_params (s : State) (h : Nat) (b : Bool) : (setTimerActive s h b).params = s.params := rfl
@[simp] theorem setTimerActive_buf (s : State) (h : Nat) (b : Bool) : (setTimerActive s h b).buf = s.buf := rfl
@[simp] theorem setTimerActive_cursor (s : State) (h : Nat) (b : Bool) : (setTimerActive s h b).cursor = s.cursor := rfl
@[simp] theorem setTimerActive_cnt (s : State) (h : Nat) (b : Bool) : (setTimerActive s h b).cnt = s.cnt := rfl
@[simp] theorem setTimerActive_cmp (s : State) (h : Nat) (b : Bool) : (setTimerActive s h b).cmp = s.cmp := rfl
@[simp] theorem setTimerActive_run (s : State) (h : Nat) (b : Bool) : (setTimerActive s h b).run = s.run := rfl
@[simp] theorem setTimerActive_ovfEn (s : State) (h : Nat) (b : Bool) : (setTimerActive s h b).ovfEn = s.ovfEn := rfl
@[simp] theorem setTimerActive_cmpEn (s : State) (h : Nat) (b : Bool) : (setTimerActive s h b).cmpEn = s.cmpEn := rfl
@[simp] theorem setTimerActive_ovfPend (s : State) (h : Nat) (b : Bool) : (setTimerActive s h b).ovfPend = s.ovfPend := rfl
@[simp] theorem setTimerActive_cmpPend (s : State) (h : Nat) (b : Bool) : (setTimerActive s h b).cmpPend = s.cmpPend := rfl
@[simp] theorem setTimerActive_dir (s : State) (h : Nat) (b : Bool) : (setTimerActive s h b).dir = s.dir := rfl
@[simp] theorem setTimerActive_out (s : State) (h : Nat) (b : Bool) : (setTimerActive s h b).out = s.out := rfl
@[simp] theorem setTimerActive_swt (s : State) (h : Nat) (b : Bool) : (setTimerActive s h b).swt = s.swt.modify h fun t => { t with active := b } := rfl
@[simp] theorem setTimerActive_swtPend (s : State) (h : Nat) (b : Bool) : (setTimerActive s h b).swtPend = s.swtPend := rfl
@[simp] theorem setTimerActive_fg (s : State) (h : Nat) (b : Bool) : (setTimerActive s h b).fg = s.fg := rfl
@[simp] theorem setTimerActive_resp (s : State) (h : Nat) (b : Bool) : (setTimerActive s h b).resp = s.resp := rfl
@[simp] theorem setTimerActive_trace (s : State) (h : Nat) (b : Bool) : (setTimerActive s h b).trace = s.trace := rfl

/-! ## `tickTimers` -/

@[simp] theorem tickTimers_params (s : State) : (tickTimers s).params = s.params := rfl
@[simp] theorem tickTimers_buf (s : State) : (tickTimers s).buf = s.buf := rfl
@[simp] theorem tickTimers_cursor (s : State) : (tickTimers s).cursor = s.cursor := rfl
@[simp] theorem tickTimers_cnt (s : State) : (tickTimers s).cnt = s.cnt := rfl
@[simp] theorem tickTimers_cmp (s : State) : (tickTimers s).cmp = s.cmp := rfl
@[simp] theorem tickTimers_run (s : State) : (tickTimers s).run = s.run := rfl
@[simp] theorem tickTimers_ovfEn (s : State) : (tickTimers s).ovfEn = s.ovfEn := rfl
@[simp] theorem tickTimers_cmpEn (s : State) : (tickTimers s).cmpEn = s.cmpEn := rfl
@[simp] theorem tickTimers_ovfPend (s : State) : (tickTimers s).ovfPend = s.ovfPend := rfl
@[simp] theorem tickTimers_cmpPend (s : State) : (tickTimers s).cmpPend = s.cmpPend := rfl
@[simp] theorem tickTimers_dir (s : State) : (tickTimers s).dir = s.dir := rfl
@[simp] theorem tickTimers_out (s : State) : (tickTimers s).out = s.out := rfl
@[simp] theorem tickTimers_swt (s : State) : (tickTimers s).swt = s.swt.map fun t => { t with count := decSat t.count } := rfl
@[simp] theorem tickTimers_swtPend (s : State) : (tickTimers s).swtPend = s.swtPend := rfl
@[simp] theorem tickTimers_fg (s : State) : (tickTimers s).fg = s.fg := rfl
@[simp] theorem tickTimers_resp (s : State) : (tickTimers s).resp = s.resp := rfl
@[simp] theorem tickTimers_trace (s : State) : (tickTimers s).trace = s.trace := rfl

/-! ## `raiseSwt` -/

@[simp] theorem raiseSwt_params (s : State) : (raiseSwt s).params = s.params := rfl
@[simp] theorem raiseSwt_buf (s : State) : (raiseSwt s).buf = s.buf := rfl
@[simp] theorem raiseSwt_cursor (s : State) : (raiseSwt s).cursor = s.cursor := rfl
@[simp] theorem raiseSwt_cnt (s : State) : (raiseSwt s).cnt = s.cnt := rfl
@[simp] theorem raiseSwt_cmp (s : State) : (raiseSwt s).cmp = s.cmp := rfl
@[simp] theorem raiseSwt_run (s : State) : (raiseSwt s).run = s.run := rfl
@[simp] theorem raiseSwt_ovfEn (s : State) : (raiseSwt s).ovfEn = s.ovfEn := rfl
@[simp] theorem raiseSwt_cmpEn (s : State) : (raiseSwt s).cmpEn = s.cmpEn := rfl
@[simp] theorem raiseSwt_ovfPend (s : State) : (raiseSwt s).ovfPend = s.ovfPend := rfl
@[simp] theorem raiseSwt_cmpPend (s : State) : (raiseSwt s).cmpPend = s.cmpPend := rfl
@[simp] theorem raiseSwt_dir (s : State) : (raiseSwt s).dir = s.dir := rfl
@[simp] theorem raiseSwt_out (s : State) : (raiseSwt s).out = s.out := rfl
@[simp] theorem raiseSwt_swt (s : State) : (raiseSwt s).swt = s.swt := rfl
@[simp] theorem raiseSwt_swtPend (s : State) : (raiseSwt s).swtPend = true := rfl
@[simp] theorem raiseSwt_fg (s : State) : (raiseSwt s).fg = s.fg := rfl
@[simp] theorem raiseSwt_resp (s : State) : (raiseSwt s).resp = s.resp := rfl
@[simp] theorem raiseSwt_trace (s : State) : (raiseSwt s).trace = s.trace := rfl

/-! ## `respond` -/

@[simp] theorem respond_params (s : State) (b : Bool) : (respond s b).params = s.params := rfl
@[simp] theorem respond_buf (s : State) (b : Bool) : (respond s b).buf = s.buf := rfl
@[simp] theorem respond_cursor (s : State) (b : Bool) : (respond s b).cursor = s.cursor := rfl
@[simp] theorem respond_cnt (s : State) (b : Bool) : (respond s b).cnt = s.cnt := rfl
@[simp] theorem respond_cmp (s : State) (b : Bool) : (respond s b).cmp = s.cmp := rfl
@[simp] theorem respond_run (s : State) (b : Bool) : (respond s b).run = s.run := rfl
@[simp] theorem respond_ovfEn (s : State) (b : Bool) : (respond s b).ovfEn = s.ovfEn := rfl
@[simp] theorem respond_cmpEn (s : State) (b : Bool) : (respond s b).cmpEn = s.cmpEn := rfl
@[simp] theorem respond_ovfPend (s : State) (b : Bool) : (respond s b).ovfPend = s.ovfPend := rfl
@[simp] theorem respond_cmpPend (s : State) (b : Bool) : (respond s b).cmpPend = s.cmpPend := rfl
@[simp] theorem respond_dir (s : State) (b : Bool) : (respond s b).dir = s.dir := rfl
@[simp] theorem respond_out (s : State) (b : Bool) : (respond s b).out = s.out := rfl
@[simp] theorem respond_swt (s : State) (b : Bool) : (respond s b).swt = s.swt := rfl
@[simp] theorem respond_swtPend (s : State) (b : Bool) : (respond s b).swtPend = s.swtPend := rfl
@[simp] theorem respond_fg (s : State) (b : Bool) : (respond s b).fg = .idle := rfl
@[simp] theorem respond_resp (s : State) (b : Bool) : (respond s b).resp = some b := rfl
@[simp] theorem respond_trace (s : State) (b : Bool) : (respond s b).trace = s.trace := rfl

/-! ## `enterService`, `leaveService` -/

@[simp] theorem enterService_params (e : Event) (s : State) : (enterService e s).params = s.params := by cases e <;> rfl
@[simp] theorem enterService_buf (e : Event) (s : State) : (enterService e s).buf = s.buf := by cases e <;> rfl
@[simp] theorem enterService_cursor (e : Event) (s : State) : (enterService e s).cursor = s.cursor := by cases e <;> rfl
@[simp] theorem enterService_cnt (e : Event) (s : State) : (enterService e s).cnt = s.cnt := by cases e <;> rfl
@[simp] theorem enterService_cmp (e : Event) (s : State) : (enterService e s).cmp = s.cmp := by cases e <;> rfl
@[simp] theorem enterService_run (e : Event) (s : State) : (enterService e s).run = s.run := by cases e <;> rfl
@[simp] theorem enterService_ovfEn (e : Event) (s : State) : (enterService e s).ovfEn = s.ovfEn := by cases e <;> rfl
@[simp] theorem enterService_cmpEn (e : Event) (s : State) : (enterService e s).cmpEn = s.cmpEn := by cases e <;> rfl
@[simp] theorem enterService_blank_ovfPend (s : State) : (enterService .blank s).ovfPend = s.ovfPend := rfl
@[simp] theorem enterService_scan_ovfPend (s : State) : (enterService .scan s).ovfPend = false := rfl
@[simp] theorem enterService_swtTick_ovfPend (s : State) : (enterService .swtTick s).ovfPend = s.ovfPend := rfl
@[simp] theorem enterService_blank_cmpPend (s : State) : (enterService .blank s).cmpPend = false := rfl
@[simp] theorem enterService_scan_cmpPend (s : State) : (enterService .scan s).cmpPend = s.cmpPend := rfl
@[simp] theorem enterService_swtTick_cmpPend (s : State) : (enterService .swtTick s).cmpPend = s.cmpPend := rfl
@[simp] theorem enterService_dir (e : Event) (s : State) : (enterService e s).dir = s.dir := by cases e <;> rfl
@[simp] theorem enterService_out (e : Event) (s : State) : (enterService e s).out = s.out := by cases e <;> rfl
@[simp] theorem enterService_swt (e : Event) (s : State) : (enterService e s).swt = s.swt := by cases e <;> rfl
@[simp] theorem enterService_blank_swtPend (s : State) : (enterService .blank s).swtPend = s.swtPend := rfl
@[simp] theorem enterService_scan_swtPend (s : State) : (enterService .scan s).swtPend = s.swtPend := rfl
@[simp] theorem enterService_swtTick_swtPend (s : State) : (enterService .swtTick s).swtPend = false := rfl
@[simp] theorem enterService_fg (e : Event) (s : State) : (enterService e s).fg = s.fg := by cases e <;> rfl
@[simp] theorem enterService_resp (e : Event) (s : State) : (enterService e s).resp = s.resp := by cases e <;> rfl
@[simp] theorem enterService_trace (e : Event) (s : State) : (enterService e s).trace = s.trace := by cases e <;> rfl

@[simp] theorem leaveService_eq (s : State) : leaveService s = s := rfl

/-! ## Reset -/

@[simp] theorem resetWith_params (p : Params) : (State.resetWith p).params = p := rfl
@[simp] theorem resetWith_buf (p : Params) : (State.resetWith p).buf = Vector.replicate 25 Slot.zero := rfl
@[simp] theorem resetWith_cursor (p : Params) : (State.resetWith p).cursor = 0 := rfl
@[simp] theorem resetWith_cnt (p : Params) : (State.resetWith p).cnt = 0 := rfl
@[simp] theorem resetWith_cmp (p : Params) : (State.resetWith p).cmp = 0 := rfl
@[simp] theorem resetWith_run (p : Params) : (State.resetWith p).run = false := rfl
@[simp] theorem resetWith_ovfEn (p : Params) : (State.resetWith p).ovfEn = false := rfl
@[simp] theorem resetWith_cmpEn (p : Params) : (State.resetWith p).cmpEn = false := rfl
@[simp] theorem resetWith_ovfPend (p : Params) : (State.resetWith p).ovfPend = false := rfl
@[simp] theorem resetWith_cmpPend (p : Params) : (State.resetWith p).cmpPend = false := rfl
@[simp] theorem resetWith_dir (p : Params) : (State.resetWith p).dir = 0 := rfl
@[simp] theorem resetWith_out (p : Params) : (State.resetWith p).out = 0 := rfl
@[simp] theorem resetWith_swt (p : Params) : (State.resetWith p).swt = List.replicate p.nSwt ⟨false, 0⟩ := rfl
@[simp] theorem resetWith_swtPend (p : Params) : (State.resetWith p).swtPend = false := rfl
@[simp] theorem resetWith_fg (p : Params) : (State.resetWith p).fg = .idle := rfl
@[simp] theorem resetWith_resp (p : Params) : (State.resetWith p).resp = none := rfl
@[simp] theorem resetWith_trace (p : Params) : (State.resetWith p).trace = [] := rfl

end Sys2Proof.Machine
end

