-- ==== Sys2Proof/Laws/Micro.lean ====
section
/-! SUPPORT. What micro-steps and whole commands can do, said once: the frame of a micro-step, the effect of a row copy and of a
zeroed range, and when a command completes. -/

namespace Sys2Proof.Machine

/-! ## Micro-steps in sequence -/

@[simp] theorem runMicros_nil (p : Progress) : runMicros [] p = .ok p := rfl

theorem runMicros_cons_ok {m : Micro} {ms : List Micro} {p q : Progress} (h : runMicro m p = .ok q) :
    runMicros (m :: ms) p = runMicros ms q := by simp [runMicros, h]

theorem runMicros_append_ok {ms ns : List Micro} {p q : Progress} (h : runMicros ms p = .ok q) :
    runMicros (ms ++ ns) p = runMicros ns q := by
  induction ms generalizing p with
  | nil => simp only [runMicros_nil, Except.ok.injEq] at h; simp [h]
  | cons m ms ih =>
    simp only [List.cons_append, runMicros] at h ⊢
    split at h
    · exact ih h
    · cases h

/-- Everything a micro-step leaves alone, whatever it does: the parameters, the cursor, the low-rate flag, the command port and
the schedule (R80, R121). -/
theorem runMicro_frame {m : Micro} {p q : Progress} (h : runMicro m p = .ok q) :
    q.state.params = p.state.params ∧ q.state.cursor = p.state.cursor ∧ q.state.swtPend = p.state.swtPend
      ∧ q.state.fg = p.state.fg ∧ q.state.resp = p.state.resp ∧ q.state.trace = p.state.trace := by
  cases m <;> simp only [runMicro] at h
  all_goals
    first
    | (cases h; simp [initEffect, drvOnEffect, drvOffEffect])
    | (split at h <;> first | (cases h; simp) | (split at h <;> cases h <;> simp) | cases h)

theorem runMicros_frame {ms : List Micro} {p q : Progress} (h : runMicros ms p = .ok q) :
    q.state.params = p.state.params ∧ q.state.cursor = p.state.cursor ∧ q.state.swtPend = p.state.swtPend
      ∧ q.state.fg = p.state.fg ∧ q.state.resp = p.state.resp ∧ q.state.trace = p.state.trace := by
  induction ms generalizing p with
  | nil => cases h; simp
  | cons m ms ih =>
    simp only [runMicros] at h
    split at h
    · rename_i p' hp
      have h1 := runMicro_frame hp
      have h2 := ih h
      simp only [h1] at h2
      exact h2
    · cases h

/-! ## Rows and ranges (R8) -/

/-- A zeroed range: its slots hold `ZERO`, every other slot and everything else is as before. -/
theorem runMicros_zeroRange (s : State) (rd : Option Ticks) (base n : Nat) :
    ∃ b : Vector Slot 25, runMicros (zeroRange base n) ⟨s, rd, false⟩ = .ok ⟨{ s with buf := b }, rd, false⟩
      ∧ ∀ (i : Nat) (h : i < 25), b[i] = if base ≤ i ∧ i < base + n then Slot.zero else s.buf[i] := by
  induction n with
  | zero => exact ⟨s.buf, rfl, fun i h => by rw [if_neg (by omega)]⟩
  | succ n ih =>
    obtain ⟨b, hb, hi⟩ := ih
    refine ⟨b.setIfInBounds (base + n) Slot.zero, ?_, fun i h => ?_⟩
    · rw [zeroRange, List.range_succ, List.map_append]
      exact runMicros_append_ok hb
    · rw [Vector.getElem_setIfInBounds, hi i h]
      split
      · rw [if_pos (by omega)]
      · split
        · rw [if_pos (by omega)]
        · rw [if_neg (by omega)]

/-- The first `n` columns of a row copied to the area's slots. -/
theorem runMicros_copyCols (s : State) (rd : Option Ticks) (a : Area) (r n : Nat)
    (hrom : ∀ j, j < n → ∃ w, romRead s.params.rom a r j = some w) :
    ∃ b : Vector Slot 25,
      runMicros ((List.range n).map fun j => .copy a r j) ⟨s, rd, false⟩ = .ok ⟨{ s with buf := b }, rd, false⟩
      ∧ ∀ (i : Nat) (h : i < 25), if a.base ≤ i ∧ i < a.base + n then romRead s.params.rom a r (i - a.base) = some b[i]
          else b[i] = s.buf[i] := by
  induction n with
  | zero => exact ⟨s.buf, rfl, fun i h => by rw [if_neg (by omega)]⟩
  | succ n ih =>
    obtain ⟨b, hb, hi⟩ := ih fun j hj => hrom j (by omega)
    obtain ⟨w, hw⟩ := hrom n (by omega)
    refine ⟨b.setIfInBounds (a.base + n) w, ?_, fun i h => ?_⟩
    · rw [List.range_succ, List.map_append]
      rw [runMicros_append_ok hb]
      simp [runMicros, runMicro, hw, writeSlot]
    · have := hi i h
      rw [Vector.getElem_setIfInBounds]
      by_cases hin : a.base + n = i
      · subst hin
        rw [if_pos (by omega)]
        simpa using hw
      · simp only [hin, if_false]
        by_cases hlt : a.base ≤ i ∧ i < a.base + n
        · rw [if_pos (by omega)]
          rwa [if_pos hlt] at this
        · rw [if_neg (by omega)]
          rwa [if_neg hlt] at this

/-- `CopyRow`: the area holds the row, every other slot and everything else is as before (R8, R24). -/
theorem runMicros_copyRow (s : State) (rd : Option Ticks) (a : Area) {r : Nat} (hwf : paramsWf s.params = true)
    (hr : r < areaRows s.params a) :
    ∃ b : Vector Slot 25, runMicros (copyRow a r) ⟨s, rd, false⟩ = .ok ⟨{ s with buf := b }, rd, false⟩
      ∧ ∀ (i : Nat) (h : i < 25), if a.base ≤ i ∧ i < a.base + a.size then
          romRead s.params.rom a r (i - a.base) = some b[i] else b[i] = s.buf[i] :=
  runMicros_copyCols s rd a r a.size fun _ hj => (romRead_of_wf hwf hr hj).imp fun _ h => h.1

/-! ## Whole commands -/

/-- A whole command that answers a next state was issued to a free port, ran all its micro-steps and gave its response. -/
theorem runCommand_next {ms : List Micro} {s t : State} (h : runCommand ms s = .next t) :
    s.fg = .idle ∧ ∃ p, runMicros ms ⟨s, none, false⟩ = .ok p ∧ t = respond p.state p.ret := by
  unfold runCommand at h
  split at h
  · cases h
  · rename_i hfg
    split at h
    · rename_i p hp
      cases h
      exact ⟨hfg, p, hp, rfl⟩
    · cases h

/-- A command completes when its micro-steps do. -/
theorem runCommand_of_ok {ms : List Micro} {s : State} {p : Progress} (hfg : s.fg = .idle)
    (h : runMicros ms ⟨s, none, false⟩ = .ok p) : runCommand ms s = .next (respond p.state p.ret) := by
  simp [runCommand, hfg, h]

/-- The meaning of a command is its micro-steps run as one (R46), for every command the decoder lets through. -/
theorem exec_command {i : Instr} {s : State} (hl : i.isLabel = false) (hwf : i.wellFormed s.params.nSwt = true) :
    exec i s = runCommand (microsOf s.params i) s := by
  cases i <;> simp only [Instr.isLabel, Bool.true_eq_false] at hl <;>
    simp only [Instr.wellFormed, decide_eq_true_eq] at hwf <;>
    first
    | rfl
    | (simp [exec, execSwtSet, execSwtIst, execSwtAct, runTimerCommand, handle, hwf, microsOf])

/-! ## Single micro-steps of the software timers -/

theorem runMicro_writeCount {s : State} {rd : Option Ticks} {r : Bool} {h : Byte} (ticks : Ticks) (hh : h.toNat < s.swt.length) :
    runMicro (.writeCount h ticks) ⟨s, rd, r⟩ = .ok ⟨setTimerCount s h.toNat (truncTicks s.params.swtW ticks), rd, false⟩ := by
  simp [runMicro, handle, hh]

theorem runMicro_writeActive {s : State} {rd : Option Ticks} {r : Bool} {h : Byte} (b : Bool) (hh : h.toNat < s.swt.length) :
    runMicro (.writeActive h b) ⟨s, rd, r⟩ = .ok ⟨setTimerActive s h.toNat b, rd, false⟩ := by
  simp [runMicro, handle, hh]

theorem runMicro_readCount {s : State} {rd : Option Ticks} {r : Bool} {h : Byte} (hh : h.toNat < s.swt.length) :
    runMicro (.readCount h) ⟨s, rd, r⟩ = .ok ⟨s, some s.swt[h.toNat].count, false⟩ := by
  simp [runMicro, handle, hh]

theorem runMicro_testExpiry {s : State} {c : Ticks} {r : Bool} {h : Byte} (hh : h.toNat < s.swt.length) :
    runMicro (.testExpiry h) ⟨s, some c, r⟩
      = .ok (if expired s.swt[h.toNat].active c then ⟨setTimerActive s h.toNat false, some c, true⟩
          else ⟨s, some c, false⟩) := by
  simp only [runMicro, handle, List.getElem?_eq_getElem hh]
  split <;> rfl

/-! ## The port and the schedule are no micro-step's business -/

/-- `s` with another command in flight, response and schedule. -/
def withPort (s : State) (f : Fg) (r : Option Bool) (ts : List Turn) : State := { s with fg := f, resp := r, trace := ts }

@[simp] theorem withPort_params (s : State) (f : Fg) (r : Option Bool) (ts : List Turn) :
    (withPort s f r ts).params = s.params := rfl

@[simp] theorem withPort_fg (s : State) (f : Fg) (r : Option Bool) (ts : List Turn) : (withPort s f r ts).fg = f := rfl

@[simp] theorem withPort_trace (s : State) (f : Fg) (r : Option Bool) (ts : List Turn) : (withPort s f r ts).trace = ts := rfl

/-- A micro-step does the same whatever the port and the schedule hold. -/
theorem runMicro_withPort (m : Micro) (s : State) (rd : Option Ticks) (b : Bool) (f : Fg) (r : Option Bool)
    (ts : List Turn) :
    runMicro m ⟨withPort s f r ts, rd, b⟩
      = match runMicro m ⟨s, rd, b⟩ with
        | .ok p => .ok ⟨withPort p.state f r ts, p.read, p.ret⟩
        | .error e => .error e := by
  cases m <;> simp only [runMicro, withPort]
  case testExpiry h => cases s.swt[handle h]? <;> cases rd <;> simp; split <;> simp [setTimerActive]
  all_goals first | rfl | (split <;> simp_all [writeSlot, setTimerCount, setTimerActive])

/-- Neither does it depend on the bit returned so far. -/
theorem runMicro_ret (m : Micro) (s : State) (rd : Option Ticks) (b c : Bool) :
    runMicro m ⟨s, rd, b⟩ = runMicro m ⟨s, rd, c⟩ := by cases m <;> rfl

theorem runMicros_withPort (ms : List Micro) (s : State) (rd : Option Ticks) (b : Bool) (f : Fg) (r : Option Bool)
    (ts : List Turn) :
    runMicros ms ⟨withPort s f r ts, rd, b⟩
      = match runMicros ms ⟨s, rd, b⟩ with
        | .ok p => .ok ⟨withPort p.state f r ts, p.read, p.ret⟩
        | .error e => .error e := by
  induction ms generalizing s rd b with
  | nil => rfl
  | cons m ms ih =>
    simp only [runMicros, runMicro_withPort]
    cases runMicro m ⟨s, rd, b⟩ with
    | error e => rfl
    | ok p => exact ih _ _ _

/-- A host command has a micro-step (R8). -/
theorem microsOf_length_pos (p : Params) {i : Instr} (h : i.isLabel = false) : 0 < (microsOf p i).length := by
  cases i <;> simp_all [Instr.isLabel, microsOf, initMicros, drvonMicros, drvoffMicros, brightMicros, clearMicros,
    numMicros, numclrMicros, powerMicros, pctMicros, dropMicros, fillMicros, swtSetMicros, swtIstMicros, swtActMicros,
    zeroRange, copyRow, Area.size]

end Sys2Proof.Machine
end

