-- ==== Sys2Proof/Laws/PerInstr.lean ====
section
/-! SUPPORT. Per instruction: its word is the word of its row, for every value of its operands (R63). -/

namespace Sys2Proof.Laws.RowWord

/-- The encoder's word matches the instruction's own row of the table of R63: `w & mask == match`. -/
def Statement (i : Instr) : Prop := encode i &&& (opRow i).mask = (opRow i).value

theorem init : Statement .init := rfl
theorem drvon : Statement .drvon := rfl
theorem drvoff : Statement .drvoff := rfl
theorem clear : Statement .clear := rfl
theorem numclr : Statement .numclr := rfl
theorem tclk : Statement .tclk := rfl
theorem scan : Statement .scan := rfl
theorem blank : Statement .blank := rfl
theorem swtTick : Statement .swtTick := rfl

/-- A word whose `ARG` is one byte, under the mask that leaves that byte out. -/
theorem byteWord_masked (op b : Byte) : cmdWord op 0 (argOfByte b) &&& 0xFFFFFF00 = cmdWord op 0 0 := by
  apply BitVec.eq_of_getLsbD_eq
  intro i hi
  simp only [cmdWord, argOfByte, BitVec.getLsbD_and]
  rw [BitVec.getLsbD_append, BitVec.getLsbD_append, BitVec.getLsbD_append, BitVec.getLsbD_append, BitVec.getLsbD_append]
  interval_cases i <;> simp

theorem bright (pct : Byte) : Statement (.bright pct) := byteWord_masked 0x04 pct
theorem num (value : Byte) : Statement (.num value) := byteWord_masked 0x11 value
theorem power (b : Byte) : Statement (.power b) := byteWord_masked 0x13 b
theorem pct (b : Byte) : Statement (.pct b) := byteWord_masked 0x14 b
theorem drop (level : Byte) : Statement (.drop level) := byteWord_masked 0x15 level
theorem fill (level : Byte) : Statement (.fill level) := byteWord_masked 0x16 level

theorem swtSet (h : Byte) (ticks : Ticks) : Statement (.swtSet h ticks) := by
  apply BitVec.eq_of_getLsbD_eq
  intro i hi
  simp only [encode, opRow, cmdWord, BitVec.getLsbD_and]
  rw [BitVec.getLsbD_append, BitVec.getLsbD_append]
  interval_cases i <;> simp

theorem swtIst (h : Byte) : Statement (.swtIst h) := by
  apply BitVec.eq_of_getLsbD_eq
  intro i hi
  simp only [encode, opRow, cmdWord, BitVec.getLsbD_and]
  rw [BitVec.getLsbD_append, BitVec.getLsbD_append]
  interval_cases i <;> simp

theorem swtAct (h b : Byte) : Statement (.swtAct h b) := by
  apply BitVec.eq_of_getLsbD_eq
  intro i hi
  simp only [encode, opRow, cmdWord, argOfByte, BitVec.getLsbD_and]
  rw [BitVec.getLsbD_append, BitVec.getLsbD_append, BitVec.getLsbD_append]
  interval_cases i <;> simp

end Sys2Proof.Laws.RowWord
end

