-- ==== Sys2Proof/Laws/Safety.lean ====
section
/-! SUPPORT. What the named operations keep of a legal state (R36), one lemma per operation. -/

namespace Sys2Proof.Machine

theorem slotLegal_zero (rom : Rom) (i : Nat) : slotLegal rom i Slot.zero = true := by simp [slotLegal]

/-- A ROM entry is legal in the slot `CopyRow` writes it to (R11, R24). -/
theorem slotLegal_of_romRead {p : Params} (h : paramsWf p = true) {a : Area} {r j : Nat} {w : Slot}
    (hw : romRead p.rom a r j = some w) : slotLegal p.rom (a.base + j) w = true := by
  obtain ⟨hj, hw⟩ := romRead_legal h hw
  simp only [slotLegal, areaOf_base_add a hj]
  rcases hw with hw | hw <;> simp [hw]

/-- Writing a legal word to a slot leaves every slot legal. -/
theorem writeSlot_legal {s : State} {i : Nat} {w : Slot}
    (h : ∀ (j : Nat) (hj : j < 25), slotLegal s.params.rom j s.buf[j] = true) (hw : slotLegal s.params.rom i w = true)
    (j : Nat) (hj : j < 25) : slotLegal s.params.rom j (writeSlot s i w).buf[j] = true := by
  simp only [writeSlot, Vector.getElem_setIfInBounds]
  split
  · rename_i e
    subst e
    exact hw
  · exact h j hj

/-- A legal slot word drives no floating line high (R21, R22). -/
theorem subset_of_slotLegal {p : Params} (h : paramsWf p = true) {i : Nat} {w : Slot} (hw : slotLegal p.rom i w = true) :
    subset w.anode w.active = true := by
  simp only [slotLegal, Bool.or_eq_true, decide_eq_true_eq, List.contains_iff_mem] at hw
  rcases hw with rfl | hw
  · rfl
  · have := (paramsWf_seg h).2.1 w (List.mem_of_mem_drop (List.mem_of_mem_take hw))
    simp only [segWf, Bool.and_eq_true] at this
    exact this.1.1

/-- A truncated count has `SWT_W` bits (R141). -/
theorem truncTicks_lt (swtW : Nat) (t : Ticks) : (truncTicks swtW t).toNat < 2 ^ swtW := by
  simp only [truncTicks, BitVec.toNat_ofNat]
  exact Nat.lt_of_le_of_lt (Nat.mod_le _ _) (Nat.mod_lt _ (Nat.two_pow_pos _))

/-- The saturating decrement on numbers (R7). -/
theorem decSat_toNat (c : Ticks) : (decSat c).toNat = c.toNat - 1 := by
  unfold decSat
  split
  · rename_i h
    simp [h]
  · rename_i h
    have : c.toNat ≠ 0 := fun e => h (BitVec.eq_of_toNat_eq (by simpa using e))
    rw [BitVec.toNat_sub]
    simp
    omega

/-- The counter after a clock, on numbers (R100). -/
theorem nextCount_toNat {s : State} (hp : s.params.timerMax ≤ 255) (hc : s.cnt.toNat ≤ s.params.timerMax) :
    (nextCount s).toNat = if s.cnt.toNat = s.params.timerMax then 0 else s.cnt.toNat + 1 := by
  by_cases h : s.cnt.toNat = s.params.timerMax
  · simp [nextCount, overflow, h]
  · simp [nextCount, overflow, h, BitVec.toNat_add]
    omega

/-- The compare value a brightness gives, on numbers (R122). -/
theorem setBrightness_cmp_toNat {s : State} (hp : s.params.timerMax ≤ 255) (pct : Nat) :
    (setBrightness s pct).cmp.toNat = brightMap s.params.timerMax pct := by
  have := brightMap_le s.params.timerMax pct
  simp only [setBrightness, BitVec.toNat_ofNat]
  omega

/-- The schedule is no part of what makes a state legal. -/
theorem Legal.withTrace {s : State} (h : Legal s) (ts : List Turn) : Legal { s with trace := ts } :=
  ⟨h.params, h.cursor, h.cnt, h.cmp, h.buf, h.port, h.bank, h.counts, h.fg⟩

/-! ## Waiting for service (R105) -/

/-- An event that is eligible is pending (R104). -/
theorem pending_of_eligible {s : State} {e : Event} (h : eligible s e = true) : pending s e = true := by
  cases e <;> simp_all [eligible, pending, blankEligible, scanEligible, swtTickEligible]

/-- A clock lowers no flag (R100). -/
theorem pending_clockEffect {s : State} {e : Event} (h : pending s e = true) : pending (clockEffect s) e = true := by
  cases e <;> simp_all [pending, clockEffect]

/-- A wait that has begun grows with the clocks while its flag is up, eligible or not. -/
theorem nextWait_some {s : State} {e : Event} (h : pending s e = true) (clock : Bool) (k : Nat) :
    nextWait clock s e (some k) = some (if clock then k + 1 else k) := by simp [nextWait, h]

/-- A flag that is down waits for nothing. -/
theorem nextWait_of_not_pending {s : State} {e : Event} (h : pending s e = false) (clock : Bool) (w : Option Nat) :
    nextWait clock s e w = none := by simp [nextWait, h]

end Sys2Proof.Machine
end

