-- ==== Sys2Proof/Laws/Step.lean ====
section
/-! SUPPORT. What one step can do, said once: the next entry of the schedule, each agent's turn, and the three hardware steps. -/

namespace Sys2Proof.Machine

/-! ## The schedule -/

theorem step_of_trace {s : State} {t : Turn} {rest : List Turn} (h : s.trace = t :: rest) :
    step s = runTurn t { s with trace := rest } := by simp [step, h]

/-- A step that answers a next state took the first entry of the schedule. -/
theorem step_next {s s' : State} (h : step s = .next s') :
    ∃ t rest, s.trace = t :: rest ∧ runTurn t { s with trace := rest } = .next s' := by
  unfold step at h
  split at h
  · cases h
  · rename_i t rest ht
    exact ⟨t, rest, ht, h⟩

/-- Running on from a step that answered a next state. -/
theorem run_succ {s s' : State} (h : step s = .next s') (k : Nat) :
    Sys2Proof.core.run (k + 1) s = Sys2Proof.core.run k s' := by
  have hs : Sys2Proof.core.step s = .next s' := h
  simp only [Host.Core.run, hs]

/-- A run that goes on has answered a next state at its first step. -/
theorem run_succ_next {s t : State} {k : Nat} (h : Sys2Proof.core.run (k + 1) s = .next t) :
    ∃ s', step s = .next s' ∧ Sys2Proof.core.run k s' = .next t := by
  simp only [Host.Core.run] at h
  split at h
  · rename_i s' hs
    exact ⟨s', hs, h⟩
  · cases h
  · cases h

theorem run_zero (s : State) : Sys2Proof.core.run 0 s = .next s := rfl

/-- Runs compose. -/
theorem run_add {s s' : State} {j : Nat} (h : Sys2Proof.core.run j s = .next s') (k : Nat) :
    Sys2Proof.core.run (j + k) s = Sys2Proof.core.run k s' := by
  induction j generalizing s with
  | zero => cases h; simp
  | succ j ih =>
    obtain ⟨s1, hs, hr⟩ := run_succ_next h
    rw [Nat.succ_add, run_succ hs]
    exact ih hr

/-! ## Words of the labels -/

theorem decode_encode_tclk (n : Nat) : decode n (encode .tclk) = some .tclk := rfl
theorem decode_encode_scan (n : Nat) : decode n (encode .scan) = some .scan := rfl
theorem decode_encode_blank (n : Nat) : decode n (encode .blank) = some .blank := rfl
theorem decode_encode_swtTick (n : Nat) : decode n (encode .swtTick) = some .swtTick := rfl

/-- A label's entry runs its meaning. -/
theorem step_label {i : Instr} {s : State} {rest : List Turn} (hd : ∀ n, decode n (encode i) = some i)
    (h : s.trace = entry i :: rest) : step s = exec i { s with trace := rest } := by
  rw [step_of_trace h]
  simp [runTurn, entry, runWord, hd]

/-! ## The hardware steps -/

/-- A clock is always taken; it has no effect while the timer is stopped (R100). -/
theorem execTclk_eq (s : State) : execTclk s = .next (if s.run then clockEffect s else s) := by
  unfold execTclk; split <;> rfl

/-- A `SCAN` that answers a next state was eligible and applied the slot at the cursor (R102, R104). -/
theorem execScan_next {s t : State} (h : execScan s = .next t) :
    scanEligible s = true ∧ ∃ hc : s.cursor.toNat < 25, t = { s with
      ovfPend := false, dir := s.buf[s.cursor.toNat].active, out := s.buf[s.cursor.toNat].anode,
      cursor := BitVec.ofNat 8 ((s.cursor.toNat + 1) % 25) } := by
  unfold execScan at h
  split at h
  · rename_i he
    refine ⟨he, ?_⟩
    by_cases hc : s.cursor.toNat < 25
    · simp only [readCursorSlot, Vector.getElem?_eq_getElem hc] at h
      cases h
      exact ⟨hc, rfl⟩
    · simp only [readCursorSlot, Vector.getElem?_eq_none (Nat.le_of_not_lt hc)] at h
      cases h
  · cases h

/-- A `BLANK` that answers a next state was eligible (R103, R104). -/
theorem execBlank_next {s t : State} (h : execBlank s = .next t) :
    blankEligible s = true ∧ t = { s with cmpPend := false, out := 0 } := by
  unfold execBlank at h
  split at h
  · rename_i he
    cases h
    exact ⟨he, rfl⟩
  · cases h

/-- A `SWT_TICK` that answers a next state had no display event before it (R145, R164). -/
theorem execSwtTick_next {s t : State} (h : execSwtTick s = .next t) :
    displayQuiet s = true ∧ t = { s with swtPend := false, swt := s.swt.map fun u => { u with count := decSat u.count } } := by
  unfold execSwtTick at h
  split at h
  · rename_i he
    cases h
    refine ⟨?_, rfl⟩
    simpa [eligible, swtTickEligible, displayQuiet, blankEligible, scanEligible] using he
  · cases h

/-- The highest-priority eligible event is eligible (R104, R164). -/
theorem nextEvent_eligible {s : State} {e : Event} (h : nextEvent s = some e) : eligible s e = true := by
  unfold nextEvent at h
  split at h
  · rename_i hb; cases h; exact hb
  · split at h
    · rename_i _ hb; cases h; exact hb
    · split at h
      · rename_i _ _ hb; cases h; exact hb
      · cases h

/-! ## The host -/

/-- What presenting a word can do: the port was free, the word is a command, and only the port changes (R30, R60). -/
theorem presentCommand_next {w : CmdWord} {s t : State} (h : presentCommand w s = .next t) :
    s.fg = .idle ∧ (∃ i, decodeCommand s.params.nSwt w = some i) ∧ t = { s with fg := .busy w 0 none, resp := none } := by
  unfold presentCommand at h
  split at h
  · cases h
  · rename_i hfg
    split at h
    · rename_i i hi
      cases h
      exact ⟨hfg, ⟨i, hi⟩, rfl⟩
    · cases h

/-- What the host's turn can do: nothing when no command is in flight; otherwise the next micro-step of the command, after
which the command is complete or goes on with the one after it (R30, R46). -/
theorem hostMicro_next {s t : State} (h : hostMicro s = .next t) :
    (s.fg = .idle ∧ t = s) ∨
    ∃ w n rd i m p, s.fg = .busy w n rd ∧ decodeCommand s.params.nSwt w = some i ∧ (microsOf s.params i)[n]? = some m
      ∧ runMicro m ⟨s, rd, false⟩ = .ok p
      ∧ ((n + 1 = (microsOf s.params i).length ∧ t = respond p.state p.ret)
        ∨ (n + 1 ≠ (microsOf s.params i).length ∧ t = { p.state with fg := .busy w (n + 1) p.read })) := by
  unfold hostMicro at h
  split at h
  · rename_i hfg
    cases h
    exact .inl ⟨hfg, rfl⟩
  · rename_i w n rd hfg
    split at h
    · cases h
    · rename_i i hi
      split at h
      · cases h
      · rename_i m hm
        split at h
        · cases h
        · rename_i p hp
          refine .inr ⟨w, n, rd, i, m, p, hfg, hi, hm, hp, ?_⟩
          split at h
          · rename_i hn
            cases h
            exact .inl ⟨hn, rfl⟩
          · rename_i hn
            cases h
            exact .inr ⟨hn, rfl⟩

/-- A command the port decodes is no label (R67, R68). -/
theorem decodeCommand_some {n : Nat} {w : CmdWord} {i : Instr} (h : decodeCommand n w = some i) :
    decode n w = some i ∧ i.isLabel = false := by
  unfold decodeCommand at h
  split at h
  · rename_i j hj
    split at h
    · cases h
    · rename_i hl
      cases h
      exact ⟨hj, by simpa using hl⟩
  · cases h

end Sys2Proof.Machine
end

