-- ==== Sys2Proof/Machine/Asm.lean ====
section
/-! DEFINITION. The assembler syntax of R71 and R72: a line of text to an operation, and a program to the entries of a schedule. Text
is a list of characters, so that it evaluates structurally (log 25). -/

namespace Sys2Proof.Machine

/-- What one line stands for: an operation of R63, or a pseudo-operation of R72. -/
inductive AsmLine where
  | instr (i : Instr)
  /-- `SCAN*n`, `TCLK*n` and the other labels repeated. -/
  | times (i : Instr) (n : Nat)
  | swtSetMs (h : Byte) (ms : Nat)
  /-- `PERIOD*n`. -/
  | periods (n : Nat)
  /-- `FRAME*n`. -/
  | frames (n : Nat)
  deriving DecidableEq, Repr

/-- Blank space inside a line. -/
def isBlankChar (c : Char) : Bool := c == ' ' || c == '\t'

/-- A piece of text without the blank space around it. -/
def trim (cs : List Char) : List Char := ((cs.dropWhile isBlankChar).reverse.dropWhile isBlankChar).reverse

/-- The text before the first `sep`, and what follows it if there is one. -/
def cut (sep : Char) : List Char → List Char × Option (List Char)
  | [] => ([], none)
  | c :: cs =>
    if c = sep then ([], some cs)
    else
      let (a, b) := cut sep cs
      (c :: a, b)

/-- The pieces of `cs` between separators, in order. -/
def pieces (sep : Char) : List Char → List (List Char)
  | [] => [[]]
  | c :: cs =>
    match pieces sep cs with
    | [] => [[c]]
    | p :: ps => if c = sep then [] :: p :: ps else (c :: p) :: ps

/-- The value of a digit in a base up to 16. -/
def digitValue (base : Nat) (c : Char) : Option Nat :=
  let n := c.toNat
  let v := if 48 ≤ n ∧ n ≤ 57 then n - 48 else if 65 ≤ n ∧ n ≤ 70 then n - 55 else if 97 ≤ n ∧ n ≤ 102 then n - 87 else 16
  if v < base then some v else none

/-- The value of a string of digits, most significant first. -/
def digits (base acc : Nat) : List Char → Option Nat
  | [] => some acc
  | c :: cs =>
    match digitValue base c with
    | some d => digits base (acc * base + d) cs
    | none => none

/-- A number, decimal or `0x` hexadecimal (R71). -/
def number (cs : List Char) : Option Nat :=
  match trim cs with
  | [] => none
  | ['0', 'x'] => none
  | '0' :: 'x' :: ds => digits 16 0 ds
  | ds => digits 10 0 ds

/-- The operands of a line: numbers separated by commas, or none at all (R71). -/
def operands (cs : List Char) : Option (List Nat) :=
  match trim cs with
  | [] => some []
  | ds => (pieces ',' ds).mapM number

/-- An operand that fills a field of `n` bits (R62, R69). -/
def field (n v : Nat) : Option (BitVec n) := if v < 2 ^ n then some (BitVec.ofNat n v) else none

/-- The operation of a mnemonic without operands (R63). -/
def plainOp (m : List Char) : Option Instr :=
  if m = ['I', 'N', 'I', 'T'] then some .init
  else if m = ['D', 'R', 'V', 'O', 'N'] then some .drvon
  else if m = ['D', 'R', 'V', 'O', 'F', 'F'] then some .drvoff
  else if m = ['C', 'L', 'E', 'A', 'R'] then some .clear
  else if m = ['N', 'U', 'M', 'C', 'L', 'R'] then some .numclr
  else if m = ['T', 'C', 'L', 'K'] then some .tclk
  else if m = ['S', 'C', 'A', 'N'] then some .scan
  else if m = ['B', 'L', 'A', 'N', 'K'] then some .blank
  else if m = ['S', 'W', 'T', '_', 'T', 'I', 'C', 'K'] then some .swtTick
  else none

/-- The operation of a mnemonic with one 8-bit operand (R63). -/
def byteOp (m : List Char) (v : Byte) : Option Instr :=
  if m = ['B', 'R', 'I', 'G', 'H', 'T'] then some (.bright v)
  else if m = ['N', 'U', 'M'] then some (.num v)
  else if m = ['P', 'O', 'W', 'E', 'R'] then some (.power v)
  else if m = ['P', 'C', 'T'] then some (.pct v)
  else if m = ['D', 'R', 'O', 'P'] then some (.drop v)
  else if m = ['F', 'I', 'L', 'L'] then some (.fill v)
  else if m = ['S', 'W', 'T', '_', 'I', 'S', 'T'] then some (.swtIst v)
  else none

/-- The operation of a mnemonic with a handle first and one operand after it (R63, R71). -/
def handleOp (m : List Char) (h : Byte) (v : Nat) : Option AsmLine :=
  if m = ['S', 'W', 'T', '_', 'S', 'E', 'T'] then (field 16 v).map fun t => .instr (.swtSet h t)
  else if m = ['S', 'W', 'T', '_', 'A', 'C', 'T'] then (field 8 v).map fun b => .instr (.swtAct h b)
  else if m = ['S', 'W', 'T', '_', 'S', 'E', 'T', '_', 'M', 'S'] then some (.swtSetMs h v)
  else none

/-- A mnemonic that may be followed by `*n`: a label, `PERIOD` or `FRAME` (R72). -/
def repeatable (m : List Char) (n : Nat) : Option AsmLine :=
  if m = ['P', 'E', 'R', 'I', 'O', 'D'] then some (.periods n)
  else if m = ['F', 'R', 'A', 'M', 'E'] then some (.frames n)
  else
    match plainOp m with
    | some i => if i.isLabel then some (.times i n) else none
    | none => none

/-- The mnemonic `m` with its operands (R71). -/
def lineOf (m : List Char) (args : List Nat) : Option AsmLine :=
  match args with
  | [] =>
    match plainOp m with
    | some i => some (.instr i)
    | none => repeatable m 1
  | [v] =>
    match field 8 v with
    | some b => (byteOp m b).map .instr
    | none => none
  | [h, v] =>
    match field 8 h with
    | some b => handleOp m b v
    | none => none
  | _ => none

/-- One line of text: the operation it stands for, none where it is no line of the syntax; a line of nothing but blank space and a
comment stands for no operation, `some none` (R71). -/
def parseLine (cs : List Char) : Option (Option AsmLine) :=
  match trim (cut ';' cs).1 with
  | [] => some none
  | body =>
    match cut '*' body with
    | (m, some n) =>
      match number n with
      | some k => (repeatable (trim m) k).map some
      | none => none
    | (_, none) =>
      let m := body.takeWhile fun c => !isBlankChar c
      match operands (body.drop m.length) with
      | some args => (lineOf m args).map some
      | none => none

/-- A run of plain entries on a state, for expanding what follows it. -/
def afterAll (s : State) (i : Instr) : Nat → State
  | 0 => s
  | n + 1 => afterAll (after s i) i n

/-- The entries a line stands for on `s`, and the state after them (R72). -/
def expandLine (l : AsmLine) (s : State) : Option (List Turn × State) :=
  match l with
  | .instr i => if i.wellFormed s.params.nSwt then some ([entry i], after s i) else none
  | .times i n => some (repeated i n, afterAll s i n)
  | .swtSetMs h ms =>
    match swtSetMsHere h ms with
    | some i => if i.wellFormed s.params.nSwt then some ([entry i], after s i) else none
    | none => none
  | .periods n => some (expandClocks (n * (s.params.timerMax + 1)) s)
  | .frames n => some (expandClocks (n * (25 * (s.params.timerMax + 1))) s)

/-- A program, one line after another: the schedule it stands for on `s`; none where a line is no line of the syntax. -/
def assemble : List (List Char) → State → Option (List Turn)
  | [], _ => some []
  | cs :: rest, s =>
    match parseLine cs with
    | none => none
    | some none => assemble rest s
    | some (some l) =>
      match expandLine l s with
      | none => none
      | some (es, s') =>
        match assemble rest s' with
        | some more => some (es ++ more)
        | none => none

end Sys2Proof.Machine
end

