-- ==== Sys2Proof/Tests/Slice0.lean ====
section
/-! SUPPORT. Tests and witnesses. The expected values are the ones written out in spec/95_test_vectors.md (sections and programs as
noted) or in the rule a test names. The witnesses meet the hypotheses of the statements. -/

namespace Sys2Proof.Tests

set_option Elab.async false

open Sys2Proof Sys2Proof.Machine Sys2Proof.Claims

/-! ## Helpers -/

/-- The next state of an outcome, if it is one. -/
def nextOf (o : Host.Outcome State Fault Refusal) : Option State :=
  match o with
  | .next s => some s
  | .fault _ => none
  | .refused _ => none

/-- The refusal of an outcome, if it is one. -/
def refusalOf (o : Host.Outcome State Fault Refusal) : Option Refusal :=
  match o with
  | .next _ => none
  | .fault _ => none
  | .refused r => some r

theorem exists_next {o : Host.Outcome State Fault Refusal} (h : (nextOf o).isSome = true) : ∃ t, o = .next t := by
  cases o with
  | next s => exact ⟨s, rfl⟩
  | fault f => simp [nextOf] at h
  | refused r => simp [nextOf] at h

/-- The slots `base .. base+n-1` as the words of R61. -/
def slots (base n : Nat) (s : State) : List (BitVec 16) := ((s.buf.toList.drop base).take n).map slotToWord

/-- The result of one instruction, seen through `f`. -/
def look {α : Type} (i : Instr) (s : State) (f : State → α) : Option α := (nextOf (exec i s)).map f

/-- The machine of R5's defaults after `INIT`, `BRIGHT 50` and `DRVON`. -/
def on : State := { State.reset with run := true, ovfEn := true, cmpEn := true, cmp := 127 }

/-- `on` with slot 14 (`2404`, the power mark) under the cursor and a scan tick pending. -/
def scanReady : State := { on with buf := on.buf.set 14 ⟨0x24, 0x04⟩, cursor := 14, ovfPend := true }

/-- `on` with the power mark lit and a blank pending. -/
def blankReady : State := { on with dir := 0x24, out := 0x04, cmpPend := true }

/-- The default machine with its first timer at `(a, c)`. -/
def timerAt (a : Bool) (c : Ticks) : State := { State.reset with swt := [⟨a, c⟩, ⟨false, 4⟩] }

/-- A machine with `CLEAR` in flight, its last micro-step the next one to take. -/
def lastMicro : State :=
  { scanReady with buf := on.buf.set 24 ⟨0x30, 0x10⟩, fg := .busy 0x10000000 24 none, trace := [.micro] }

/-! ## WellFormed refuses each ill-formed term -/

theorem test_wellFormed_handle_of_swtSet : (Instr.swtSet 2 3).wellFormed 2 = false := by decide
theorem test_wellFormed_handle_of_swtIst : (Instr.swtIst 2).wellFormed 2 = false := by decide
theorem test_wellFormed_handle_of_swtAct : (Instr.swtAct 255 1).wellFormed 2 = false := by decide
theorem test_wellFormed_last_handle : (Instr.swtSet 1 65535).wellFormed 2 = true := by decide

/-! ## Decoding: words written from R60 and R63, and the vectors of section 4 -/

theorem test_decode_init : decode 2 0x01000000 = some .init := by decide
theorem test_decode_drvon : decode 2 0x02000000 = some .drvon := by decide
theorem test_decode_drvoff : decode 2 0x03000000 = some .drvoff := by decide
theorem test_decode_bright : decode 2 0b00000100_00000000_00000000_01100100 = some (.bright 100) := by decide
theorem test_decode_clear : decode 2 0x10000000 = some .clear := by decide
theorem test_decode_num : decode 2 0b00010001_00000000_00000000_00101010 = some (.num 42) := by decide
theorem test_decode_numclr : decode 2 0x12000000 = some .numclr := by decide
theorem test_decode_power : decode 2 0x130000FF = some (.power 0xFF) := by decide
theorem test_decode_pct : decode 2 0x14000000 = some (.pct 0) := by decide
theorem test_decode_drop : decode 2 0x1500000C = some (.drop 12) := by decide
theorem test_decode_fill : decode 2 0x160000FF = some (.fill 255) := by decide
theorem test_decode_swtSet : decode 2 0b00100000_00000001_00000000_11111010 = some (.swtSet 1 250) := by decide
theorem test_decode_swtIst : decode 2 0x21010000 = some (.swtIst 1) := by decide
theorem test_decode_swtAct : decode 2 0b00100010_00000001_00000000_00000001 = some (.swtAct 1 1) := by decide
theorem test_decode_tclk : decode 2 0b11100000_00000000_00000000_00000000 = some .tclk := by decide
theorem test_decode_scan : decode 2 0xE1000000 = some .scan := by decide
theorem test_decode_blank : decode 2 0xE2000000 = some .blank := by decide
theorem test_decode_swtTick : decode 2 0xE3000000 = some .swtTick := by decide

/-- The refused words of section 4, the labels apart. -/
theorem test_decode_refuses_reserved :
    ([0x01000001, 0x01010000, 0x04000164, 0x05000000, 0x00000000, 0x1101002A, 0x1100012A, 0x13000100, 0x17000000,
      0x20020003, 0x21000001, 0x22000100, 0x23000000, 0xFFFFFFFF] : List CmdWord).all (fun w => decode 2 w = none) := by
  decide

/-- R67: the labels are refused on the command port. -/
theorem test_port_refuses_labels :
    ([0xE0000000, 0xE1000000, 0xE2000000, 0xE3000000] : List CmdWord).all
      (fun w => decodeCommand 2 w = none) := by decide

theorem test_decodeTableWord : decodeTableWord 32 0x2000FFFF = some (.swtSet 0 65535) ∧ decodeTableWord 40 0x100000000 = none := by
  decide

/-! ## The ROM and the words of R61 -/

theorem test_reference_image_passes : paramsWf defaultParams = true := by decide +kernel

/-- R37: the first 25 ordered pairs (high line, low line). -/
theorem test_reference_segments :
    refSeg = (((List.range 6).flatMap fun h => ((List.range 6).filter fun l => l ≠ h).map fun l =>
      (⟨(1 : Mask) <<< h ||| (1 : Mask) <<< l, (1 : Mask) <<< h⟩ : Slot)).take 25) := by decide

/-- R28, S10: a table of another length than its parameter says is refused at construction. -/
theorem test_construct_refuses_wrong_row_count : State.construct { defaultParams with dropletRows := 5 } = none := by
  decide +kernel

theorem test_slot_word : slotToWord ⟨0x24, 0x04⟩ = 0x2404 ∧ slotOfWord 0x3010 = ⟨0x30, 0x10⟩ := by decide

/-! ## Content commands (sections 2.1 to 2.3) -/

theorem test_num_42 : look (.num 42) State.reset (slots 0 14) = some [0x0501, 0x0901, 0x0302, 0x0602, 0, 0, 0,
    0x0A02, 0x1202, 0x0504, 0x0604, 0x1404, 0, 0] := by decide +kernel

/-- `NUM 0x8B`: error and units "0", nibble 11 wraps (S4). -/
theorem test_num_8B : look (.num 0x8B) State.reset (slots 0 14) = some [0x0301, 0x1101, 0x2101, 0x0302, 0x0602, 0, 0,
    0x0A02, 0x1202, 0x2202, 0x0504, 0x0604, 0x0C04, 0] := by decide +kernel

theorem test_numRows : numRows 9 = (10, 9) ∧ numRows 10 = (1, 0) ∧ numRows 99 = (9, 9) ∧ numRows 100 = (11, 11)
    ∧ numRows 127 = (11, 11) ∧ numRows 128 = (12, 0) ∧ numRows 0x8A = (12, 10) ∧ numRows 0x95 = (12, 5)
    ∧ numRows 0xFF = (12, 4) := by decide

/-- `NUMCLR` keeps slots 14 to 24. -/
theorem test_numclr : look .numclr { on with buf := Vector.replicate 25 ⟨0x24, 0x04⟩ } (slots 13 2) = some [0, 0x2404] := by
  decide +kernel

theorem test_clear : look .clear { on with buf := Vector.replicate 25 ⟨0x24, 0x04⟩ } (fun s => slots 0 25 s)
    = some (List.replicate 25 0) := by decide +kernel

/-- Any nonzero byte is true (R62). -/
theorem test_power_FF : look (.power 0xFF) State.reset (slots 13 3) = some [0, 0x2404, 0] := by decide +kernel
theorem test_power_0 : look (.power 0) scanReady (slots 13 3) = some [0, 0, 0] := by decide +kernel
theorem test_pct_1 : look (.pct 1) scanReady (slots 14 3) = some [0x2404, 0x0908, 0] := by decide +kernel
theorem test_fill_10 : look (.fill 10) State.reset (slots 15 6) = some [0, 0x0A08, 0x0C08, 0x1808, 0x2808, 0] := by
  decide +kernel
theorem test_fill_255 : look (.fill 255) State.reset (slots 16 4) = some [0x2808, 0, 0, 0] := by decide +kernel
theorem test_drop_12 : look (.drop 12) State.reset (slots 19 6) = some [0, 0x1110, 0x1210, 0x1410, 0x1810, 0x3010] := by
  decide +kernel
theorem test_drop_255 : look (.drop 255) State.reset (slots 20 5) = some [0x1810, 0, 0, 0, 0] := by decide +kernel

/-! ## Lifecycle (sections 2.4 and 2.6) -/

theorem test_brightMap : (List.map (brightMap 255) [0, 1, 2, 10, 24, 25, 33, 34, 49, 50, 66, 67, 75, 99, 100, 101, 200, 255])
    = [0, 2, 5, 25, 61, 63, 84, 86, 124, 127, 168, 170, 191, 252, 255, 255, 255, 255]
    ∧ (List.map (brightMap 3) [0, 33, 34, 66, 67, 99, 100]) = [0, 0, 1, 1, 2, 2, 3] := by decide

/-- `BRIGHT` leaves a pending blank. -/
theorem test_bright_10 : look (.bright 10) blankReady (fun s => (s.cmp, s.cmpPend)) = some (25, true) := by decide +kernel

theorem test_init_on_running_machine : look .init { on with cnt := 77, ovfPend := true, cursor := 9, out := 4 }
      (fun s => (s.cnt, s.ovfPend, s.cmp, s.run, s.cursor, s.out)) = some (0, false, 255, true, 9, 4) := by decide +kernel

/-- `INIT_RUN` and `INIT_BRIGHT_PCT = 50`. -/
theorem test_init_run : look .init (State.resetWith { defaultParams with initRun := true, initBrightPct := 50 })
      (fun s => (s.cmp, s.ovfEn, s.cmpEn, s.run)) = some (127, true, true, true) := by decide +kernel

theorem test_drvon_clears_stale_flags : look .drvon { on with run := false, ovfPend := true, cmpPend := true, cnt := 40 }
      (fun s => (s.run, s.ovfPend, s.cmpPend, s.cnt)) = some (true, false, false, 40) := by decide +kernel

theorem test_drvoff_keeps_flags_and_counter : look .drvoff { blankReady with cnt := 100, cursor := 15 }
      (fun s => (s.run, s.dir, s.out, s.cmpPend, s.cnt, s.cursor)) = some (false, 0, 0, true, 100, 15) := by decide +kernel

/-! ## Scan steps (section 2.5) -/

theorem test_tclk_overflow_and_match : look .tclk { on with cnt := 255, cmp := 255 }
      (fun s => (s.cnt, s.ovfPend, s.cmpPend)) = some (0, true, true) := by decide +kernel

theorem test_tclk_match_uses_value_before : look .tclk { on with cnt := 127 }
      (fun s => (s.cnt, s.ovfPend, s.cmpPend)) = some (128, false, true) := by decide +kernel

theorem test_scan_slot_14 : look .scan scanReady (fun s => (s.ovfPend, s.dir, s.out, s.cursor)) = some (false, 0x24, 0x04, 15)
    ∧ look .scan scanReady pins = some [.Z, .Z, .H, .Z, .Z, .L] := by decide +kernel

theorem test_scan_wraps_at_24 : look .scan { scanReady with cursor := 24 } (fun s => (s.dir, s.out, s.cursor)) = some (0, 0, 0) := by
  decide +kernel

theorem test_scan_waits_for_blank : refusalOf (exec .scan { scanReady with cmpPend := true }) = some (.notEligible .scan) := by
  decide +kernel

theorem test_blank : look .blank blankReady (fun s => (s.cmpPend, s.dir, s.out)) = some (false, 0x24, 0)
    ∧ look .blank blankReady pins = some [.Z, .Z, .L, .Z, .Z, .L] := by decide +kernel

theorem test_lit_after_scan : look .scan scanReady litNow = some [14] := by decide +kernel

/-! ## Service latency (R105), with `TIMER_MAX = 3`, `CMP = 0` and a bound of two clocks -/

/-- `scanReady` with these parameters: the first clock raises a blank, which the pending `SCAN` then waits behind. -/
def late : State := { scanReady with params := { defaultParams with timerMax := 3, maxServiceLatency := 2 }, cmp := 0 }

theorem test_latency_two_clocks_are_in_time : servicedInTime (running late [entry .tclk, entry .tclk, entry .blank, entry .scan, entry .tclk]) = true := by
  decide +kernel

/-- The wait of the displaced `SCAN` goes on. -/
theorem test_latency_three_clocks_are_late : servicedInTime (running late [entry .tclk, entry .tclk, entry .blank, entry .tclk, entry .scan]) = false := by
  decide +kernel

/-! ## Software timers (section 2.7) -/

theorem test_swtSet_restarts : look (.swtSet 0 9) (timerAt true 0) (fun s => (s.swt, s.resp)) = some ([⟨true, 9⟩, ⟨false, 4⟩], some false) := by
  decide +kernel

/-- `SWT_W = 8`: 300 is cut to 44 (U2). -/
theorem test_swtSet_truncates : look (.swtSet 0 300) (State.resetWith { defaultParams with swtW := 8 }) (fun s => s.swt)
    = some [⟨true, 44⟩, ⟨false, 0⟩] := by decide +kernel

theorem test_swtIst_consumes : look (.swtIst 0) (timerAt true 0) (fun s => (s.swt, s.resp)) = some ([⟨false, 0⟩, ⟨false, 4⟩], some true) := by
  decide +kernel

theorem test_swtIst_idle_with_count : look (.swtIst 0) (timerAt false 7) (fun s => (s.swt, s.resp))
    = some ([⟨false, 7⟩, ⟨false, 4⟩], some false) := by decide +kernel

theorem test_swtAct_80 : look (.swtAct 0 0x80) (timerAt false 5) (fun s => s.swt) = some [⟨true, 5⟩, ⟨false, 4⟩] := by decide +kernel

theorem test_swtTick_counts_idle_timer_too : look .swtTick (timerAt true 1) (fun s => s.swt) = some [⟨true, 0⟩, ⟨false, 3⟩] := by
  decide +kernel

theorem test_swtTick_saturates : look .swtTick (timerAt true 0) (fun s => (s.swt, s.swtPend)) = some ([⟨true, 0⟩, ⟨false, 3⟩], false) := by
  decide +kernel

/-- `SWT_SET 0, 3` with one `SWT_TICK` between its two micro-steps leaves `(1, 2)` (section 2.7). -/
theorem test_swtTick_inside_swtSet : (nextOf (Sys2Proof.core.run 4 (running State.reset
      [.present 0x20000003, .micro, .word 0xE3000000, .micro]))).map (fun s => (s.swt, s.resp, s.fg))
    = some ([⟨true, 2⟩, ⟨false, 0⟩], some false, .idle) := by decide +kernel

/-- Section 2.8. -/
theorem test_msToTicks : msToTicks 1000 16 = some 63 ∧ msToTicks 250 16 = some 16 ∧ msToTicks 0 10 = some 0
    ∧ msToTicks 11 10 = some 2 ∧ msToTicks 65535 1 = some 65535 ∧ msToTicks 5 0 = none := by decide

/-! ## Traces and text (R67, R71, R72) -/

/-- Every row's word runs as the first step after reset. -/
theorem test_withFetchWord : ([0x01000000, 0x02000000, 0x03000000, 0x04000000, 0x10000000, 0x11000000, 0x12000000, 0x13000000, 0x14000000,
      0x15000000, 0x16000000, 0x20000000, 0x21000000, 0x22000000, 0xE0000000, 0xE1000000, 0xE2000000, 0xE3000000] : List Nat).all
    (fun w => (nextOf (step (State.reset.withFetchWord 32 w))).isSome) := by decide +kernel

theorem test_step_past_the_end : refusalOf (step State.reset) = some .traceEnded := by decide +kernel

/-- Section 2.5's table of events, with `TIMER_MAX = 3` and `CMP = 1`: a period is two clocks, `BLANK`, two clocks, `SCAN`. -/
theorem test_period : period { on with params := { defaultParams with timerMax := 3 }, cmp := 1 }
    = [entry .tclk, entry .tclk, entry .blank, entry .tclk, entry .tclk, entry .scan] := by decide +kernel

theorem test_parse_swtSet : parseLine "  SWT_SET 1, 0x00FA ; arm".toList = some (some (.instr (.swtSet 1 250))) := by decide +kernel
theorem test_parse_repeat : parseLine "TCLK*28".toList = some (some (.times .tclk 28)) := by decide +kernel
theorem test_parse_comment : parseLine "; nothing".toList = some none := by decide +kernel
theorem test_parse_rejects_command_repeat : parseLine "CLEAR*2".toList = none := by decide +kernel
theorem test_parse_rejects_wide_operand : parseLine "NUM 256".toList = none := by decide +kernel

/-! ## Witnesses: states and operands that meet the hypotheses of the statements, clause by clause -/

theorem legal_scanReady : Legal scanReady := by constructor <;> decide +kernel

theorem legal_blankReady : Legal blankReady := by constructor <;> decide +kernel

theorem legal_timerAt : Legal (timerAt true 1) := by constructor <;> decide +kernel

theorem legal_lastMicro : Legal lastMicro := by constructor <;> decide +kernel

/-- The handle's last value, and the words of it. -/
theorem witness_DecodeOfEncodeIsTheInstruction : (Instr.swtAct 1 255).wellFormed 2 = true := by decide

theorem witness_EncodeOfDecodeIsTheWord : decode 2 0x220100FF = some (.swtAct 1 255) := by decide

/-- On a machine with two timers handle 1 is one of the row's words and handle 2 matches the row but is none. -/
theorem witness_DecodeAgreesWithMatchAndMask :
    opRow (.swtIst 0) ∈ opTable ∧ (0x21010000 : CmdWord) &&& 0xFF00FFFF = 0x21000000
      ∧ (hOf 0x21010000).toNat < 2 ∧ (0x21020000 : CmdWord) &&& 0xFF00FFFF = 0x21000000 ∧ ¬ (hOf 0x21020000).toNat < 2 := by
  decide

theorem witness_PortRefusesExactlyReservedWords :
    (running State.reset [.present 0x20020003]).trace = .present 0x20020003 :: [] ∧ State.reset.fg = .idle
      ∧ Reserved 2 0x20020003 ∧ Reserved 2 0xE0000000 ∧ ¬ Reserved 2 0x2001FFFF := by
  unfold Reserved
  exact ⟨rfl, rfl, by decide, by decide, by decide⟩

/-- A word that decodes and one that does not. -/
theorem witness_StepRunsTheDecodedInstruction :
    (running State.reset [.word 0x22010000]).trace = .word 0x22010000 :: [] ∧ decode 2 0x22010000 = some (.swtAct 1 0)
      ∧ decode 2 0x22020000 = none := by decide +kernel

/-- One state per clause: a blank, a scan tick, the low-rate tick, nothing. -/
theorem witness_ServicerTakesHighestPriority :
    (blankReady.run ∧ blankReady.cmpEn ∧ blankReady.cmpPend)
      ∧ (scanReady.run ∧ scanReady.ovfEn ∧ scanReady.ovfPend ∧ ¬ (scanReady.cmpEn ∧ scanReady.cmpPend))
      ∧ (¬ on.cmpPend ∧ ¬ on.ovfPend ∧ (raiseSwt on).swtPend = true ∧ on.swtPend = false) := by decide +kernel

theorem witness_MicroStepsInSequenceAreTheCommand :
    State.reset.fg = .idle ∧ decodeCommand State.reset.params.nSwt 0x1100002A = some (.num 42) := by decide +kernel

/-- A zeroing micro-step of the last slot, a copying one, one of another kind, and an idle host. -/
theorem witness_MicroStepWritesOneWholeSlot :
    (lastMicro.trace = .micro :: [] ∧ lastMicro.fg = .busy 0x10000000 24 none ∧ ∃ t, step lastMicro = .next t)
      ∧ (∃ t, step { lastMicro with fg := .busy 0x150000FF 4 none } = .next t)
      ∧ (∃ t, step { lastMicro with fg := .busy 0x03000000 0 none } = .next t)
      ∧ ∃ t, step { lastMicro with fg := .idle } = .next t :=
  ⟨⟨rfl, rfl, exists_next (by decide +kernel)⟩, exists_next (by decide +kernel), exists_next (by decide +kernel),
    exists_next (by decide +kernel)⟩

/-- `POWER 1` with a clock before its micro-step and a turn of each other agent after it. -/
theorem witness_SlotsAreOldOrNewDuringACommand :
    let ts : List Turn := [.word 0xE0000000, .micro, .lowRate, .service]
    on.fg = .idle ∧ decode on.params.nSwt 0x13000001 = some (.power 1) ∧ (Instr.power 1).isContent = true
      ∧ (∃ t, exec (.power 1) on = .next t) ∧ (∀ x ∈ ts, Interleaved on.params.nSwt x)
      ∧ (∃ u, Sys2Proof.core.run (ts.length + 1) (running on (.present 0x13000001 :: ts)) = .next u)
      ∧ (microsOf on.params (.power 1)).length ≤ ts.countP (fun x => x == .micro) := by
  refine ⟨rfl, by decide +kernel, rfl, exists_next (by decide +kernel), ?_, exists_next (by decide +kernel), by decide +kernel⟩
  intro x hx
  simp only [List.mem_cons, List.not_mem_nil, or_false] at hx
  obtain rfl | rfl | rfl | rfl := hx
  · exact .inr (.inr (.inr ⟨0xE0000000, .tclk, rfl, rfl, rfl⟩))
  · exact .inl rfl
  · exact .inr (.inr (.inl rfl))
  · exact .inr (.inl rfl)

theorem witness_ResetIsLegal : State.construct defaultParams = some State.reset := by decide +kernel

theorem witness_EveryStepKeepsTheInvariant : Legal lastMicro ∧ ∃ t, step lastMicro = .next t :=
  ⟨legal_lastMicro, exists_next (by decide +kernel)⟩

theorem witness_NoFaultFromALegalState : Legal (timerAt true 1) := legal_timerAt

/-- A command word that is not reserved, with the last handle and the largest count; and an eligible event of each kind. -/
theorem witness_CommandsAndServicesAreTotal :
    Legal (running (timerAt true 1) [.word 0x2001FFFF]) ∧ (timerAt true 1).fg = .idle ∧ ¬ Reserved 2 0x2001FFFF
      ∧ eligible blankReady .blank = true ∧ eligible scanReady .scan = true ∧ eligible (raiseSwt on) .swtTick = true := by
  refine ⟨legal_timerAt.withTrace _, rfl, ?_, by decide +kernel, by decide +kernel, by decide +kernel⟩
  unfold Reserved
  decide

/-- The last segment, and two different ones. -/
theorem witness_SegmentsDriveDistinctLinePairs :
    paramsWf defaultParams = true ∧ defaultParams.rom.seg[24]? = some ⟨0x30, 0x10⟩ ∧ defaultParams.rom.seg[0]? = some ⟨0x03, 0x01⟩ := by
  decide +kernel

/-- The last row and column of the fill table, and a segment of a digit's full row. -/
theorem witness_GlyphTablesAreWellFormed :
    paramsWf defaultParams = true ∧ romRead defaultParams.rom .fill 4 3 = some ⟨0x28, 0x08⟩ ∧ (⟨0x28, 0x08⟩ : Slot) ≠ Slot.zero
      ∧ romRead defaultParams.rom .fill 6 0 = none ∧ romRead defaultParams.rom .units 8 6 = some ⟨0x14, 0x04⟩ := by decide +kernel

/-- `ClearAndNumclrZeroTheirSlots`, `DrvonResumesTheClock`, `DrvoffReleasesEveryLine`, `SuspendAndResumeKeepTheDisplay`. -/
theorem witness_ClearAndNumclrZeroTheirSlots : scanReady.fg = .idle := rfl
theorem witness_DrvonResumesTheClock : scanReady.fg = .idle := rfl
theorem witness_DrvoffReleasesEveryLine : blankReady.fg = .idle := rfl
theorem witness_SuspendAndResumeKeepTheDisplay : blankReady.fg = .idle := rfl

/-- The hypotheses of the content commands, `INIT` and `BRIGHT`: an image that passes, and a free port. -/
theorem witness_NumShowsTheRowsOfItsValue : paramsWf scanReady.params = true ∧ scanReady.fg = .idle := by decide +kernel
theorem witness_PowerAndPctShowTheirSegment : paramsWf scanReady.params = true ∧ scanReady.fg = .idle
    ∧ (1 : Byte).toNat ≠ 0 ∧ (0 : Byte).toNat = 0 := by decide +kernel
theorem witness_FillShowsItsLevelRow : paramsWf blankReady.params = true ∧ blankReady.fg = .idle := by decide +kernel
theorem witness_DropShowsItsLevelRow : paramsWf blankReady.params = true ∧ blankReady.fg = .idle := by decide +kernel
theorem witness_InitConfiguresTheTimer : paramsWf blankReady.params = true ∧ blankReady.fg = .idle := by decide +kernel
theorem witness_BrightSetsTheCompareValue : paramsWf blankReady.params = true ∧ blankReady.fg = .idle := by decide +kernel

/-- 255 is 3 and 42 times the 6 rows of fill, and 3 and 36 times the 7 rows of droplet. -/
theorem witness_LevelsWrapModuloTheRowCount :
    (255 : Byte).toNat = (3 : Byte).toNat + 42 * State.reset.params.fillRows
      ∧ (255 : Byte).toNat = (3 : Byte).toNat + 36 * State.reset.params.dropletRows := by decide +kernel

/-- One command of each of the three kinds. -/
theorem witness_CommandsAreIdempotent : (Instr.num 255).isContent = true ∧ (∃ t, exec (.num 255) scanReady = .next t)
    ∧ (∃ t, exec .drvoff scanReady = .next t) ∧ ∃ t, exec (.bright 255) scanReady = .next t :=
  ⟨rfl, exists_next (by decide +kernel), exists_next (by decide +kernel), exists_next (by decide +kernel)⟩

theorem witness_ContentCommandsTouchTheBufferOnly : (Instr.drop 255).isContent = true ∧ ∃ t, exec (.drop 255) scanReady = .next t :=
  ⟨rfl, exists_next (by decide +kernel)⟩

theorem witness_BrightnessMapIsMonotone : (99 : Nat) ≤ 100 ∧ (100 : Nat) ≤ 100 := by decide

/-- `DRVON` leaves the off state, `INIT` with `INIT_RUN` too. -/
theorem witness_NothingIsDrivenWhileOff :
    (State.reset.run = false ∧ State.reset.dir = 0 ∧ State.reset.out = 0)
      ∧ (∃ t, step (running State.reset [.word 0x02000000]) = .next t ∧ t.run = true) :=
  ⟨by decide +kernel, (exists_next (o := step (running State.reset [.word 0x02000000])) (by decide +kernel)).imp fun t h => by
    refine ⟨h, ?_⟩
    have hn : (nextOf (step (running State.reset [.word 0x02000000]))).map State.run = some true := by decide +kernel
    rw [h] at hn
    exact Option.some.inj hn⟩

/-- A command that is issued, and one that is presented. -/
theorem witness_OneCommandInFlightAtMost : lastMicro.fg = .busy 0x10000000 24 none ∧ (Instr.swtIst 1).isLabel = false
    ∧ (Instr.swtIst 1).wellFormed lastMicro.params.nSwt = true
    ∧ (running lastMicro [.present 0x21010000]).trace = .present 0x21010000 :: [] := by decide +kernel

/-- A stopped timer, and a running one at the top of its count and below. -/
theorem witness_TclkCountsAndRaisesFlags : State.reset.run = false
    ∧ on.run = true ∧ on.params.timerMax ≤ 255 ∧ (255 : Byte).toNat = on.params.timerMax ∧ on.cnt.toNat < on.params.timerMax := by
  decide +kernel

/-- The last slot. -/
theorem witness_ScanAppliesTheCursorSlot : (24 : Byte).toNat < 25 ∧ scanReady.run = true ∧ scanReady.ovfEn = true
    ∧ scanReady.ovfPend = true ∧ ¬ (scanReady.cmpEn = true ∧ scanReady.cmpPend = true) := by decide +kernel

theorem witness_BlankForcesLevelsLow : blankReady.run = true ∧ blankReady.cmpEn = true ∧ blankReady.cmpPend = true := by decide +kernel

/-- A machine on which neither is eligible, and one on which `BLANK` is. -/
theorem witness_ServicesAreTakenOnlyWhenEligible : ¬ (on.run = true ∧ on.cmpEn = true ∧ on.cmpPend = true)
    ∧ ¬ (on.run = true ∧ on.ovfEn = true ∧ on.ovfPend = true)
    ∧ blankReady.run = true ∧ blankReady.cmpEn = true ∧ blankReady.cmpPend = true := by decide +kernel

theorem witness_ScanWritesDirBeforeOut : Legal scanReady ∧ (∃ t, exec .scan scanReady = .next t) ∧ scanReady.out = 0 :=
  ⟨legal_scanReady, exists_next (by decide +kernel), rfl⟩

/-- A slot that holds segment 14, and one that holds `ZERO`. -/
theorem witness_ScanLightsExactlyItsSegment : Legal scanReady ∧ (∃ t, exec .scan scanReady = .next t)
    ∧ scanReady.params.rom.seg[14]? = some (cursorSlot scanReady) ∧ cursorSlot { scanReady with cursor := 24 } = Slot.zero :=
  ⟨legal_scanReady, exists_next (by decide +kernel), by decide +kernel, by decide +kernel⟩

theorem witness_BlankLightsNothing : Legal blankReady ∧ ∃ t, exec .blank blankReady = .next t :=
  ⟨legal_blankReady, exists_next (by decide +kernel)⟩

/-- The premise of the statements about the reference schedule, with `CMP` in the middle and at the top of its range. -/
theorem witness_ReferencePeriodDrivesOneSlot : PeriodStart scanReady ∧ PeriodStart { scanReady with cmp := 255 } := by
  have h : Legal { scanReady with cmp := 255 } := by constructor <;> decide +kernel
  exact ⟨⟨legal_scanReady, rfl, rfl, rfl, rfl, rfl, rfl⟩, ⟨h, rfl, rfl, rfl, rfl, rfl, rfl⟩⟩

theorem witness_FrameRendersTheBuffer : PeriodStart scanReady := witness_ReferencePeriodDrivesOneSlot.1

/-- A start of a period; and a scan tick and a blank that are eligible while the clock runs. -/
theorem witness_ReferencePeriodKeepsTheLatencyBound : (PeriodStart scanReady ∧ scanReady.swtPend = false)
    ∧ (scanReady.run = true ∧ eligible scanReady .scan = true) ∧ blankReady.run = true ∧ eligible blankReady .blank = true :=
  ⟨⟨witness_ReferencePeriodDrivesOneSlot.1, rfl⟩, by decide +kernel⟩

theorem witness_PeriodExpandsToOneBlankAndOneScan : Legal { scanReady with ovfPend := false } ∧ scanReady.run = true
    ∧ scanReady.ovfEn = true ∧ scanReady.cmpEn = true ∧ scanReady.cnt = 0 ∧ scanReady.cmpPend = false :=
  ⟨by constructor <;> decide +kernel, rfl, rfl, rfl, rfl, rfl⟩

theorem witness_SwtSetArmsTheTimer : (timerAt true 0).fg = .idle ∧ (timerAt true 0).swt.length = (timerAt true 0).params.nSwt
    ∧ (1 : Byte).toNat < (timerAt true 0).params.nSwt ∧ (timerAt true 0).params.swtW ≤ 16 := by decide +kernel

/-- An expired timer and one that is not. -/
theorem witness_SwtIstConsumesTheExpiry : (timerAt true 0).fg = .idle ∧ (1 : Byte).toNat < (timerAt true 0).params.nSwt
    ∧ (timerAt true 0).swt[0]? = some ⟨true, 0⟩ ∧ timerPhase ⟨true, 0⟩ = .expiredPending
    ∧ (timerAt true 0).swt[1]? = some ⟨false, 4⟩ ∧ timerPhase ⟨false, 4⟩ ≠ .expiredPending := by decide +kernel

theorem witness_SwtActLeavesTheCount : (timerAt true 0).fg = .idle ∧ (1 : Byte).toNat < (timerAt true 0).params.nSwt
    ∧ (timerAt true 0).swt[1]? = some ⟨false, 4⟩ := by decide +kernel

/-- Nothing before the tick, and each display event before it. -/
theorem witness_SwtTickCountsEveryTimerDown : ¬ (on.cmpEn = true ∧ on.cmpPend = true) ∧ ¬ (on.ovfEn = true ∧ on.ovfPend = true)
    ∧ (blankReady.run = true ∧ blankReady.cmpEn = true ∧ blankReady.cmpPend = true)
    ∧ (scanReady.run = true ∧ scanReady.ovfEn = true ∧ scanReady.ovfPend = true) := by decide +kernel

theorem witness_HandleOutOfRangeIsRefused : State.reset.params.nSwt ≤ (2 : Byte).toNat := by decide +kernel

/-- The longest period, with a tick and a poll of each timer in between. -/
theorem witness_TimerExpiresOnceAfterItsPeriod : Legal (timerAt true 1) ∧ (timerAt true 1).fg = .idle
    ∧ (1 : Byte).toNat < (timerAt true 1).params.nSwt ∧ (65535 : Ticks).toNat < 2 ^ (timerAt true 1).params.swtW
    ∧ eligible (timerAt true 1) .blank = false ∧ eligible (timerAt true 1) .scan = false
    ∧ ∀ x ∈ [Instr.swtTick, .swtIst 0, .swtIst 1], x = .swtTick ∨ ∃ g : Byte, x = .swtIst g ∧ g.toNat < (timerAt true 1).params.nSwt := by
  refine ⟨legal_timerAt, by decide +kernel, by decide +kernel, by decide +kernel, by decide +kernel, by decide +kernel, ?_⟩
  intro x hx
  simp only [List.mem_cons, List.not_mem_nil, or_false] at hx
  obtain rfl | rfl | rfl := hx
  · exact .inl rfl
  · exact .inr ⟨0, rfl, by decide +kernel⟩
  · exact .inr ⟨1, rfl, by decide +kernel⟩

/-- The largest result that fits the operand and the first that does not. -/
theorem witness_MsToTicksRoundsUp : (1 : Nat) ≤ 1 ∧ msToTicks 65535 1 = some 65535 ∧ msToTicks 65536 1 = some 65536 := by decide

/-- A step that changes the last slot. -/
theorem witness_SlotsChangeOnlyForTheirOwnCommands : (nextOf (step lastMicro)).map (fun t => decide (t.buf[24] ≠ lastMicro.buf[24])) = some true := by
  decide +kernel

theorem witness_CursorMovesOnlyInScan : (nextOf (step (running scanReady [.word 0xE1000000]))).map State.cursor = some 15
    ∧ scanReady.cursor = 14 := by decide +kernel

/-- A step that changes both port registers. -/
theorem witness_PortChangesOnlyForItsWriters : (nextOf (step (running scanReady [.service]))).map (fun t => (t.dir, t.out)) = some (0x24, 0x04)
    ∧ scanReady.dir = 0 ∧ scanReady.out = 0 := by decide +kernel

/-- `INIT` on a fresh machine changes the compare value and the enables, a clock the counter, `DRVON` the clock. -/
theorem witness_TimerRegistersChangeOnlyForTheirWriters :
    (nextOf (step (running State.reset [.word 0x01000000]))).map (fun t => (t.cmp, t.ovfEn, t.cmpEn)) = some (255, true, true)
      ∧ (nextOf (step (running on [.word 0xE0000000]))).map State.cnt = some 1
      ∧ (nextOf (step (running State.reset [.word 0x02000000]))).map State.run = some true := by decide +kernel

/-- A step for each flag that rises, and for each that falls; one of them is the low-rate source's. -/
theorem witness_PendingFlagsRiseAndFallByRule :
    (nextOf (step (running { on with cnt := 255, cmp := 255 } [.word 0xE0000000]))).map (fun t => (t.ovfPend, t.cmpPend)) = some (true, true)
      ∧ (nextOf (step (running scanReady [.service]))).map State.ovfPend = some false
      ∧ (nextOf (step (running blankReady [.service]))).map State.cmpPend = some false
      ∧ (nextOf (step (running on [.lowRate]))).map State.swtPend = some true
      ∧ (nextOf (step (running (raiseSwt on) [.service]))).map State.swtPend = some false := by decide +kernel

/-- A step that changes the flag of the last timer, and one that changes its count. -/
theorem witness_TimersChangeOnlyForTheirOperations :
    (nextOf (step (running (timerAt true 1) [.word 0x22010001]))).map (fun t => t.swt[1]?) = some (some ⟨true, 4⟩)
      ∧ (nextOf (step (running (timerAt true 1) [.word 0xE3000000]))).map (fun t => t.swt[1]?) = some (some ⟨false, 3⟩) := by decide +kernel

theorem witness_ParametersNeverChange : ∃ t, Sys2Proof.core.run 1 lastMicro = .next t := exists_next (by decide +kernel)

/-- A service of each kind that answers a next state. -/
theorem witness_EventsNeverTouchTheHostsState : (∃ t, exec .scan scanReady = .next t) ∧ (∃ t, exec .blank blankReady = .next t)
    ∧ (∃ t, exec .tclk on = .next t) ∧ ∃ t, exec .swtTick on = .next t :=
  ⟨exists_next (by decide +kernel), exists_next (by decide +kernel), exists_next (by decide +kernel), exists_next (by decide +kernel)⟩

end Sys2Proof.Tests
end

section
/-! The Segment Table of an image that passes the contract (R22). -/

namespace Sys2Proof.Machine

/-- The checks of R22 (i) and (ii) on one segment, as propositions. -/
theorem segWf_iff {w : Slot} :
    segWf w = true ↔ w.anode &&& ~~~w.active = 0 ∧ popcount w.active = 2 ∧ popcount w.anode = 1 := by
  simp only [segWf, subset, Bool.and_eq_true, beq_iff_eq, and_assoc]

/-- `ZERO` drives no line, so it is no segment (R22 iv). -/
theorem segWf_zero : segWf Slot.zero = false := by decide

theorem ne_zero_of_segWf {w : Slot} (h : segWf w = true) : w ≠ Slot.zero := by
  rintro rfl
  rw [segWf_zero] at h
  cases h

/-- Settles O17: the contract checks each entry of the Segment Table by `segWf` and the table for repeated entries, and `segWf`
refuses `ZERO`. -/
theorem segmentsDriveDistinctLinePairs : Obligations.SegmentsDriveDistinctLinePairs := by
  intro p hp
  obtain ⟨hlen, hwf, hnodup⟩ := paramsWf_seg hp
  refine ⟨hlen, fun k w hk => ?_, fun j k v w hj hk hjk hvw => ?_⟩
  · have hw : segWf w = true := hwf w (List.mem_of_getElem? hk)
    obtain ⟨hsub, hactive, hanode⟩ := segWf_iff.mp hw
    exact ⟨hsub, hactive, hanode, ne_zero_of_segWf hw⟩
  · have hj' : j < p.rom.seg.length := (List.getElem?_eq_some_iff.mp hj).1
    have hsame : p.rom.seg[j]? = p.rom.seg[k]? := by rw [hj, hk, hvw]
    exact hjk ((List.getElem?_inj hj' hnodup).mp hsame)

end Sys2Proof.Machine
end

section
/-! The bits of the slot word (R61). -/

namespace Sys2Proof.Machine

/-- Every bit of the slot word. A mask has six bits, so `active` reads 0 in bits 15:14. -/
theorem slotToWord_getLsbD (w : Slot) (i : Nat) :
    (slotToWord w).getLsbD i
      = if i < 6 then w.anode.getLsbD i else if i < 8 then false else w.active.getLsbD (i - 8) := by
  unfold slotToWord
  simp only [BitVec.getLsbD_append]
  split
  · rfl
  · by_cases h8 : i < 8
    · simp [h8, show i - 6 < 2 by omega]
    · simpa [h8, show ¬ i - 6 < 2 by omega, show i - 6 - 2 = i - 8 by omega] using BitVec.lt_of_getLsbD

theorem slotToWord_getLsbD_active (w : Slot) (i : Nat) : (slotToWord w).getLsbD (8 + i) = w.active.getLsbD i := by
  rw [slotToWord_getLsbD, if_neg (by omega), if_neg (by omega), Nat.add_sub_cancel_left]

theorem slotToWord_getLsbD_anode (w : Slot) {i : Nat} (hi : i < 6) :
    (slotToWord w).getLsbD i = w.anode.getLsbD i := by
  rw [slotToWord_getLsbD, if_pos hi]

theorem slotToWord_getLsbD_unused (w : Slot) {i : Nat} (hi : i ∈ [6, 7, 14, 15]) : (slotToWord w).getLsbD i = false := by
  rw [slotToWord_getLsbD]
  simp only [List.mem_cons, List.not_mem_nil, or_false] at hi
  obtain rfl | rfl | rfl | rfl := hi <;> simp

theorem slotOfWord_slotToWord (w : Slot) : slotOfWord (slotToWord w) = w := by
  have hactive : (slotToWord w).extractLsb' 8 6 = w.active := by
    ext i hi
    rw [BitVec.getElem_extractLsb', slotToWord_getLsbD_active, BitVec.getLsbD_eq_getElem hi]
  have hanode : (slotToWord w).extractLsb' 0 6 = w.anode := by
    ext i hi
    rw [BitVec.getElem_extractLsb', Nat.zero_add, slotToWord_getLsbD_anode w hi, BitVec.getLsbD_eq_getElem hi]
  rw [slotOfWord, hactive, hanode]

/-- Settles O6: the bit equation of the slot word gives its fields and its unused bits, and so the way back; `ZERO` is evaluated. -/
theorem slotWordHasItsLayout : Obligations.SlotWordHasItsLayout :=
  ⟨by decide, fun w =>
    ⟨fun i hi => ⟨slotToWord_getLsbD_active w i, slotToWord_getLsbD_anode w hi⟩,
      fun _ hi => slotToWord_getLsbD_unused w hi, slotOfWord_slotToWord w⟩⟩

end Sys2Proof.Machine
end

section
/-! The command word of a `v8` or `b` command (R60, R62). -/

namespace Sys2Proof

/-- The operand's byte fills the low byte of the word of its operation. -/
theorem cmdWord_or_byte (op b : Byte) : cmdWord op 0 0 ||| b.setWidth 32 = cmdWord op 0 (argOfByte b) := by
  apply BitVec.eq_of_getLsbD_eq
  intro i hi
  simp only [cmdWord, argOfByte, BitVec.getLsbD_or, BitVec.getLsbD_append, BitVec.getLsbD_setWidth]
  by_cases h8 : i < 8
  · simp [h8, hi, show i < 16 by omega]
  · simp [h8, BitVec.getLsbD_of_ge b i (by omega)]

theorem takeByte_cmdWord (op b : Byte) (f : Byte → Instr) : takeByte (cmdWord op 0 (argOfByte b)) f = some (f b) := by
  rw [takeByte, hOf_cmdWord, argHi_cmdWord, argOfByte_hi, argLo_cmdWord, argOfByte_lo, if_pos ⟨rfl, rfl⟩]

/-- An operation code whose words the decoder reads as one byte operand decodes with every operand. -/
theorem decode_byteWord {nSwt : Nat} {op : Byte} {f : Byte → Instr}
    (hop : ∀ w, opOf w = op → decode nSwt w = takeByte w f) (b : Byte) :
    decode nSwt (cmdWord op 0 0 ||| b.setWidth 32) = some (f b) := by
  rw [cmdWord_or_byte, hop _ (opOf_cmdWord op 0 _), takeByte_cmdWord]

end Sys2Proof
end

section
/-! The content commands: what each leaves in the buffer (R81 to R88). -/

namespace Sys2Proof.Machine

/-! ## Whole commands that write the buffer only -/

/-- A command on a free port whose micro-steps leave a new buffer and nothing else answers 0 and changes nothing else (R80). -/
theorem runCommand_buf {ms : List Micro} {s : State} {b : Vector Slot 25} (hfg : s.fg = .idle)
    (h : runMicros ms ⟨s, none, false⟩ = .ok ⟨{ s with buf := b }, none, false⟩) :
    runCommand ms s = .next { s with buf := b, resp := some false } := by
  rw [runCommand_of_ok hfg h, respond, ← hfg]

/-- `ZeroRange` as a whole command (R8). -/
theorem runCommand_zeroRange {s : State} (hfg : s.fg = .idle) (base n : Nat) :
    ∃ b : Vector Slot 25, runCommand (zeroRange base n) s = .next { s with buf := b, resp := some false }
      ∧ ∀ (i : Nat) (h : i < 25), b[i] = if base ≤ i ∧ i < base + n then Slot.zero else s.buf[i] := by
  obtain ⟨b, hrun, hslots⟩ := runMicros_zeroRange s none base n
  exact ⟨b, runCommand_buf hfg hrun, hslots⟩

/-- `CopyRow` as a whole command (R8). -/
theorem runCommand_copyRow {s : State} (hwf : paramsWf s.params = true) (hfg : s.fg = .idle) (a : Area) {r : Nat}
    (hr : r < areaRows s.params a) :
    ∃ b : Vector Slot 25, runCommand (copyRow a r) s = .next { s with buf := b, resp := some false }
      ∧ ∀ (i : Nat) (h : i < 25), if a.base ≤ i ∧ i < a.base + a.size then
          romRead s.params.rom a r (i - a.base) = some b[i] else b[i] = s.buf[i] := by
  obtain ⟨b, hrun, hslots⟩ := runMicros_copyRow s none a hwf hr
  exact ⟨b, runCommand_buf hfg hrun, hslots⟩

/-! ## `CLEAR` and `NUMCLR` -/

/-- Settles O19: both commands are a zeroed range, of 25 and of 14 slots from slot 0. -/
theorem clearAndNumclrZeroTheirSlots : Obligations.ClearAndNumclrZeroTheirSlots := by
  refine ⟨rfl, rfl, fun s hfg => ⟨?_, ?_⟩⟩
  · obtain ⟨b, hrun, hslots⟩ := runCommand_zeroRange hfg 0 25
    exact ⟨b, hrun, fun i hi => by rw [hslots i hi, if_pos (by omega)]⟩
  · obtain ⟨b, hrun, hslots⟩ := runCommand_zeroRange hfg 0 14
    exact ⟨b, hrun, fun i hi => by simpa using hslots i hi⟩

/-! ## `NUM` -/

/-- The rows `NUM` shows, on numbers: bit 7 says whether the value is at least 128 (R83). -/
theorem numRows_eq (v : Byte) :
    numRows v = if 128 ≤ v.toNat then (12, v.toNat % 16 % 11) else if 99 < v.toNat then (11, 11)
      else (if v.toNat / 10 = 0 then 10 else v.toNat / 10, v.toNat % 10) := by
  have htop : v.getLsbD 7 = decide (128 ≤ v.toNat) := BitVec.msb_eq_decide v
  have hlow : (v &&& 0x0F).toNat = v.toNat % 16 := Nat.and_two_pow_sub_one_eq_mod v.toNat 4
  simp only [numRows, htop, hlow, decide_eq_true_eq]

/-- A tens row and a units row, one after the other: neither copy touches the other's area (R82). -/
theorem runCommand_digitRows {s : State} (hwf : paramsWf s.params = true) (hfg : s.fg = .idle) {rt ru : Nat}
    (ht : rt < s.params.tensRows) (hu : ru < s.params.unitsRows) :
    ∃ b : Vector Slot 25,
      runCommand (copyRow .tens rt ++ copyRow .units ru) s = .next { s with buf := b, resp := some false }
      ∧ ∀ (i : Nat) (h : i < 25),
          if i < 7 then romRead s.params.rom .tens rt i = some b[i]
          else if i < 14 then romRead s.params.rom .units ru (i - 7) = some b[i]
          else b[i] = s.buf[i] := by
  obtain ⟨bt, hruntens, htens⟩ := runMicros_copyRow s none .tens hwf ht
  obtain ⟨b, hrununits, hunits⟩ := runMicros_copyRow { s with buf := bt } none .units hwf hu
  refine ⟨b, runCommand_buf hfg ((runMicros_append_ok hruntens).trans hrununits), fun i hi => ?_⟩
  have hi_tens : if 0 ≤ i ∧ i < 7 then romRead s.params.rom .tens rt i = some bt[i] else bt[i] = s.buf[i] := htens i hi
  have hi_units : if 7 ≤ i ∧ i < 14 then romRead s.params.rom .units ru (i - 7) = some b[i] else b[i] = bt[i] :=
    hunits i hi
  by_cases h7 : i < 7
  · rw [if_neg (by omega)] at hi_units
    rw [if_pos (by omega)] at hi_tens
    rwa [if_pos h7, hi_units]
  · rw [if_neg (by omega)] at hi_tens
    rw [if_neg h7]
    by_cases h14 : i < 14
    · rwa [if_pos (by omega)] at hi_units ⊢
    · rw [if_neg (by omega)] at hi_units ⊢
      exact hi_units.trans hi_tens

/-- Settles O20: `NUM` copies the two rows of `numRows`, which every image has. -/
theorem numShowsTheRowsOfItsValue : Obligations.NumShowsTheRowsOfItsValue := by
  intro s v hwf hfg
  refine ⟨decode_byteWord (op := 0x11) (f := .num) (fun w hw => by simp [decode, hw]) v, ?_⟩
  obtain ⟨-, -, htens, hunits, -⟩ := paramsWf_bounds hwf
  obtain ⟨hrt, hru⟩ := numRows_lt v
  obtain ⟨b, hrun, hslots⟩ := runCommand_digitRows hwf hfg (hrt.trans_le htens) (hru.trans_le hunits)
  refine ⟨b, hrun, ?_⟩
  simpa only [numRows_eq, apply_ite Prod.fst, apply_ite Prod.snd] using hslots

/-! ## `POWER` and `PCT` -/

/-- The segments of an area are its own entries of the Segment Table (R23). -/
theorem areaSegs_getElem? (rom : Rom) (a : Area) {j : Nat} (hj : j < a.size) :
    (areaSegs rom a)[j]? = rom.seg[a.base + j]? := by
  rw [areaSegs, List.getElem?_take_of_lt hj, List.getElem?_drop]

/-- What R26 fixes of an on/off area: one slot, and the two rows off and on. -/
theorem onOff_table {p : Params} (h : paramsWf p = true) {a : Area} (ha : a = .power ∨ a = .percent) :
    a.size = 1 ∧ areaRows p a = 2 ∧ romTable p.rom a = [[Slot.zero], areaSegs p.rom a] := by
  have hcontent := paramsWf_content h
  simp only [contentWf, Bool.and_eq_true, decide_eq_true_eq] at hcontent
  obtain ⟨⟨⟨⟨⟨⟨-, hpower⟩, hpercent⟩, -⟩, -⟩, -⟩, -⟩ := hcontent
  obtain rfl | rfl := ha
  · exact ⟨rfl, rfl, hpower⟩
  · exact ⟨rfl, rfl, hpercent⟩

theorem onOffRow_of_ne_zero {b : Byte} (h : b.toNat ≠ 0) : onOffRow b = 1 :=
  if_pos (bne_iff_ne.mpr fun hb => h (congrArg BitVec.toNat hb))

theorem onOffRow_of_eq_zero {b : Byte} (h : b.toNat = 0) : onOffRow b = 0 := by
  obtain rfl : b = 0 := BitVec.eq_of_toNat_eq h
  rfl

/-- The on/off row of a one-slot area as a whole command: its segment for a true byte, `ZERO` for a false one (R85, R86). -/
theorem runCommand_onOffRow {s : State} (hwf : paramsWf s.params = true) (hfg : s.fg = .idle) {a : Area}
    (ha : a = .power ∨ a = .percent) (hbase : a.base < 25) (b : Byte) :
    ∃ v : Vector Slot 25, runCommand (copyRow a (onOffRow b)) s = .next { s with buf := v, resp := some false }
      ∧ (b.toNat ≠ 0 → s.params.rom.seg[a.base]? = some v[a.base]) ∧ (b.toNat = 0 → v[a.base] = Slot.zero)
      ∧ ∀ (i : Nat) (h : i < 25), i ≠ a.base → v[i] = s.buf[i] := by
  obtain ⟨hsize, hrows, htable⟩ := onOff_table hwf ha
  obtain ⟨v, hrun, hslots⟩ := runCommand_copyRow hwf hfg a (hrows ▸ onOffRow_lt b)
  have hread : romRead s.params.rom a (onOffRow b) 0 = some v[a.base] := by
    have hbaseSlot := hslots a.base hbase
    rwa [if_pos (by omega), Nat.sub_self] at hbaseSlot
  rw [romRead, htable] at hread
  refine ⟨v, hrun, fun hb => ?_, fun hb => ?_, fun i hi hne => ?_⟩
  · rw [onOffRow_of_ne_zero hb] at hread
    exact (areaSegs_getElem? s.params.rom a (j := 0) (by omega)).symm.trans hread
  · rw [onOffRow_of_eq_zero hb] at hread
    exact (Option.some.inj hread).symm
  · have hslot := hslots i hi
    rwa [if_neg (by omega)] at hslot

/-- Settles O21: both commands copy the on/off row of their own one-slot area. -/
theorem powerAndPctShowTheirSegment : Obligations.PowerAndPctShowTheirSegment := by
  intro s b hwf hfg
  exact
    ⟨⟨decode_byteWord (op := 0x13) (f := .power) (fun w hw => by simp [decode, hw]) b,
        runCommand_onOffRow hwf hfg (.inl rfl) (by decide) b⟩,
      ⟨decode_byteWord (op := 0x14) (f := .pct) (fun w hw => by simp [decode, hw]) b,
        runCommand_onOffRow hwf hfg (.inr rfl) (by decide) b⟩⟩

/-! ## `FILL` and `DROP` -/

/-- Settles O22: `FILL` copies a row of the fill table, whose index the modulus keeps below `FILL_ROWS`. -/
theorem fillShowsItsLevelRow : Obligations.FillShowsItsLevelRow := by
  intro s level hwf hfg
  obtain ⟨-, -, -, -, hrows, -⟩ := paramsWf_bounds hwf
  exact ⟨decode_byteWord (op := 0x16) (f := .fill) (fun w hw => by simp [decode, hw]) level,
    runCommand_copyRow hwf hfg .fill (levelRow_lt level hrows)⟩

/-- Settles O23: `DROP` copies a row of the droplet table, whose area ends with the buffer. -/
theorem dropShowsItsLevelRow : Obligations.DropShowsItsLevelRow := by
  intro s level hwf hfg
  obtain ⟨-, -, -, -, -, hrows, -⟩ := paramsWf_bounds hwf
  refine ⟨decode_byteWord (op := 0x15) (f := .drop) (fun w hw => by simp [decode, hw]) level, ?_⟩
  obtain ⟨b, hrun, hslots⟩ := runCommand_copyRow hwf hfg .droplet (levelRow_lt level hrows)
  refine ⟨b, hrun, fun i hi => ?_⟩
  have hslot : if 20 ≤ i ∧ i < 25 then
      romRead s.params.rom .droplet (level.toNat % s.params.dropletRows) (i - 20) = some b[i]
    else b[i] = s.buf[i] := hslots i hi
  simpa only [and_iff_left hi] using hslot

end Sys2Proof.Machine
end

section
/-! The scan sequencer: its clock and the two display services, taken when they are eligible (R100 to R104). -/

namespace Sys2Proof.Machine

/-! ## The clock -/

/-- The state after a clock of the running timer, register by register; `OVF_PEND` in the numbers of R100. -/
theorem clockEffect_eq (s : State) :
    clockEffect s = { s with
      cnt := nextCount s, ovfPend := s.ovfPend || decide (s.cnt.toNat = s.params.timerMax),
      cmpPend := s.cmpPend || decide (s.cnt = s.cmp) } := by
  have hovf : overflow s = decide (s.cnt.toNat = s.params.timerMax) := beq_eq_decide _ _
  have hmat : compareMatch s = decide (s.cnt = s.cmp) := beq_eq_decide _ _
  rw [← hovf, ← hmat]
  rfl

theorem exec_tclk_of_stopped {s : State} (hrun : s.run = false) : exec .tclk s = .next s :=
  (execTclk_eq s).trans (by simp [hrun])

theorem exec_tclk_of_running {s : State} (hrun : s.run = true) : exec .tclk s = .next (clockEffect s) :=
  (execTclk_eq s).trans (by simp [hrun])

/-- Settles O35: the new count is `nextCount`, whose value `nextCount_toNat` gives while the counter is in its range. -/
theorem tclkCountsAndRaisesFlags : Obligations.TclkCountsAndRaisesFlags := by
  refine ⟨rfl, fun s hrun => exec_tclk_of_stopped hrun, fun s hrun hmax hcnt => ?_⟩
  refine ⟨nextCount s, nextCount_toNat hmax hcnt, ?_⟩
  rw [exec_tclk_of_running hrun, clockEffect_eq]

/-! ## The services -/

theorem blankEligible_iff {s : State} : blankEligible s = true ↔ s.run = true ∧ s.cmpEn = true ∧ s.cmpPend = true := by
  simp only [blankEligible, Bool.and_eq_true, and_assoc]

/-- The condition of R104, in which `BLANK` stands for its own two bits: `RUN` is up on both sides. -/
theorem scanEligible_iff {s : State} : scanEligible s = true ↔
    s.run = true ∧ s.ovfEn = true ∧ s.ovfPend = true ∧ ¬ (s.cmpEn = true ∧ s.cmpPend = true) := by
  simp only [scanEligible, Bool.and_eq_true, Bool.not_eq_true', ← Bool.not_eq_true, blankEligible_iff, and_assoc]
  refine and_congr_right fun hrun => ?_
  simp only [hrun, true_and]

/-- An eligible `SCAN` whose cursor names a slot is taken; `execScan_next` is the converse (R102, R104). -/
theorem exec_scan_of_eligible {s : State} (he : scanEligible s = true) (hc : s.cursor.toNat < 25) :
    exec .scan s = .next { s with
      ovfPend := false, dir := s.buf[s.cursor.toNat].active, out := s.buf[s.cursor.toNat].anode,
      cursor := BitVec.ofNat 8 ((s.cursor.toNat + 1) % 25) } := by
  have hslot : readCursorSlot s = some s.buf[s.cursor.toNat] := Vector.getElem?_eq_getElem hc
  have htaken : execScan s = .next (scanPartB s.buf[s.cursor.toNat] (scanPartA s.buf[s.cursor.toNat] s)) := by
    simp only [execScan, eligible, he, hslot, if_true]
  exact htaken

/-- Settles O36: what an eligible `SCAN` writes is `exec_scan_of_eligible`; the new cursor is below 25, so 8 bits hold it. -/
theorem scanAppliesTheCursorSlot : Obligations.ScanAppliesTheCursorSlot := by
  refine ⟨rfl, fun s hc hrun hen hpend hblank => ?_⟩
  have he : scanEligible s = true := scanEligible_iff.mpr ⟨hrun, hen, hpend, hblank⟩
  have hfits : (s.cursor.toNat + 1) % 25 < 2 ^ 8 := by omega
  exact ⟨_, (BitVec.toNat_ofNat _ _).trans (Nat.mod_eq_of_lt hfits), exec_scan_of_eligible he hc⟩

/-- An eligible `BLANK` is taken; `execBlank_next` is the converse (R103, R104). -/
theorem exec_blank_of_eligible {s : State} (he : blankEligible s = true) :
    exec .blank s = .next { s with cmpPend := false, out := 0 } :=
  if_pos he

/-- Settles O37: the three bits of the premise are what makes `BLANK` eligible. -/
theorem blankForcesLevelsLow : Obligations.BlankForcesLevelsLow :=
  ⟨rfl, fun _ hrun hen hpend => exec_blank_of_eligible (blankEligible_iff.mpr ⟨hrun, hen, hpend⟩)⟩

end Sys2Proof.Machine
end

section
/-! The lifecycle and brightness commands: one micro-step each, and what it writes (R120 to R125). -/

namespace Sys2Proof.Machine

/-! ## Commands of one micro-step -/

/-- A command on a free port whose only micro-step reads and returns nothing answers 0 and leaves the micro-step's state (R121). -/
theorem runCommand_oneMicro {m : Micro} {s t : State} (hfg : s.fg = .idle)
    (h : runMicro m ⟨s, none, false⟩ = .ok ⟨t, none, false⟩) :
    runCommand [m] s = .next { t with resp := some false } := by
  obtain ⟨-, -, -, hport, -⟩ := runMicro_frame h
  have hfree : t.fg = .idle := hport.trans hfg
  rw [runCommand_of_ok hfg (runMicros_cons_ok h), respond, ← hfree]

theorem exec_init_of_idle {s : State} (hfg : s.fg = .idle) :
    exec .init s = .next { initEffect s with resp := some false } :=
  runCommand_oneMicro (m := .init) (t := initEffect s) hfg rfl

theorem exec_bright_of_idle {s : State} (hfg : s.fg = .idle) (pct : Byte) :
    exec (.bright pct) s = .next { setBrightness s pct.toNat with resp := some false } :=
  runCommand_oneMicro (m := .bright pct) (t := setBrightness s pct.toNat) hfg rfl

theorem exec_drvon_of_idle {s : State} (hfg : s.fg = .idle) :
    exec .drvon s = .next { drvOnEffect s with resp := some false } :=
  runCommand_oneMicro (m := .drvOn) (t := drvOnEffect s) hfg rfl

theorem exec_drvoff_of_idle {s : State} (hfg : s.fg = .idle) :
    exec .drvoff s = .next { drvOffEffect s with resp := some false } :=
  runCommand_oneMicro (m := .drvOff) (t := drvOffEffect s) hfg rfl

/-! ## `INIT` and `BRIGHT` -/

/-- Settles O27: the writes are `initEffect`'s, and the compare value it sets is the brightness map's, which 8 bits hold. -/
theorem initConfiguresTheTimer : Obligations.InitConfiguresTheTimer := by
  refine ⟨rfl, fun s hwf hfg => ?_⟩
  obtain ⟨-, hmax, -⟩ := paramsWf_bounds hwf
  exact ⟨(setBrightness s s.params.initBrightPct).cmp, setBrightness_cmp_toNat hmax _, exec_init_of_idle hfg⟩

/-- Settles O28: `BRIGHT` is `setBrightness` of its operand, whose compare value is the brightness map's. -/
theorem brightSetsTheCompareValue : Obligations.BrightSetsTheCompareValue := by
  intro s pct hwf hfg
  obtain ⟨-, hmax, -⟩ := paramsWf_bounds hwf
  exact ⟨decode_byteWord (op := 0x04) (f := .bright) (fun w hw => by simp [decode, hw]) pct,
    (setBrightness s pct.toNat).cmp, setBrightness_cmp_toNat hmax _, exec_bright_of_idle hfg pct⟩

/-! ## `DRVON` and `DRVOFF` -/

/-- Settles O30: the writes are `drvOnEffect`'s. -/
theorem drvonResumesTheClock : Obligations.DrvonResumesTheClock :=
  ⟨rfl, fun _ hfg => exec_drvon_of_idle hfg⟩

/-- A line that is not driven floats, whatever its level (R34). -/
theorem pins_of_dir_zero {s : State} (h : s.dir = 0) : pins s = [.Z, .Z, .Z, .Z, .Z, .Z] := by
  rw [pins, h]
  rfl

/-- `RUN` gates both display events (R104). -/
theorem blankEligible_of_stopped {s : State} (hrun : s.run = false) : blankEligible s = false := by
  simp [blankEligible, hrun]

theorem scanEligible_of_stopped {s : State} (hrun : s.run = false) : scanEligible s = false := by
  simp [scanEligible, hrun]

/-- Settles O31: the writes are `drvOffEffect`'s; `DIR` 0 floats every line, and `RUN` 0 keeps both display events from being
eligible. -/
theorem drvoffReleasesEveryLine : Obligations.DrvoffReleasesEveryLine := by
  refine ⟨rfl, fun s hfg => ⟨_, exec_drvoff_of_idle hfg, rfl, ?_, ?_, ?_⟩⟩
  · exact pins_of_dir_zero rfl
  · exact scanEligible_of_stopped rfl
  · exact blankEligible_of_stopped rfl

end Sys2Proof.Machine
end

section
/-! The command words of the software-timer commands (R60, R62). -/

namespace Sys2Proof

/-- The handle and the count fill the `H` and the `ARG` field of the word of their operation. -/
theorem cmdWord_or_handle_or_arg (op h : Byte) (arg : Ticks) :
    cmdWord op 0 0 ||| (h.setWidth 32 <<< 16) ||| arg.setWidth 32 = cmdWord op h arg := by
  apply BitVec.eq_of_getLsbD_eq
  intro i hi
  simp only [cmdWord, BitVec.getLsbD_or, BitVec.getLsbD_append, BitVec.getLsbD_shiftLeft, BitVec.getLsbD_setWidth]
  by_cases harg : i < 16
  · simp [harg, hi]
  · have hargBit : arg.getLsbD i = false := BitVec.getLsbD_of_ge arg i (by omega)
    by_cases hhandle : i - 16 < 8
    · simp [harg, hargBit, hi, hhandle, show i - 16 < 32 by omega]
    · simp [harg, hargBit, hhandle, BitVec.getLsbD_of_ge h (i - 16) (by omega)]

theorem cmdWord_or_handle (op h : Byte) : cmdWord op 0 0 ||| (h.setWidth 32 <<< 16) = cmdWord op h 0 := by
  simpa using cmdWord_or_handle_or_arg op h 0

theorem setWidth_argOfByte (b : Byte) : (argOfByte b).setWidth 32 = b.setWidth 32 := by
  apply BitVec.eq_of_getLsbD_eq
  intro i hi
  simp only [argOfByte, BitVec.getLsbD_setWidth, BitVec.getLsbD_append]
  by_cases hbyte : i < 8
  · simp [hbyte]
  · simp [hbyte, BitVec.getLsbD_of_ge b i (by omega)]

theorem cmdWord_or_handle_or_byte (op h b : Byte) :
    cmdWord op 0 0 ||| (h.setWidth 32 <<< 16) ||| b.setWidth 32 = cmdWord op h (argOfByte b) := by
  rw [← setWidth_argOfByte b, cmdWord_or_handle_or_arg]

variable {nSwt : Nat} {h : Byte}

theorem decode_encode_swtSet (hh : h.toNat < nSwt) (ticks : Ticks) :
    decode nSwt (encode (.swtSet h ticks)) = some (.swtSet h ticks) := by
  simp [encode, decode, opOf_cmdWord, takeHandleTicks, hOf_cmdWord, argOf_cmdWord, hh]

theorem decode_encode_swtIst (hh : h.toNat < nSwt) : decode nSwt (encode (.swtIst h)) = some (.swtIst h) := by
  simp [encode, decode, opOf_cmdWord, takeHandle, hOf_cmdWord, argOf_cmdWord, hh]

theorem decode_encode_swtAct (hh : h.toNat < nSwt) (b : Byte) :
    decode nSwt (encode (.swtAct h b)) = some (.swtAct h b) := by
  simp [encode, decode, opOf_cmdWord, takeHandleByte, hOf_cmdWord, argHi_cmdWord, argLo_cmdWord, argOfByte_hi,
    argOfByte_lo, hh]

end Sys2Proof
end

section
/-! The software-timer commands: what each leaves in the bank and what it answers (R141 to R143). -/

namespace Sys2Proof.Machine

/-! ## One timer of the bank -/

/-- The guarded write replaces the timer's count and keeps its flag (R141). -/
theorem setTimerCount_eq_set {s : State} {h : Nat} (hh : h < s.swt.length) (c : Ticks) :
    setTimerCount s h c = { s with swt := s.swt.set h ⟨s.swt[h].active, c⟩ } :=
  congrArg (fun ts => { s with swt := ts }) (List.modify_eq_set_get _ hh)

/-- The flag's write replaces the timer's flag and keeps its count (R143). -/
theorem setTimerActive_eq_set {s : State} {h : Nat} (hh : h < s.swt.length) (b : Bool) :
    setTimerActive s h b = { s with swt := s.swt.set h ⟨b, s.swt[h].count⟩ } :=
  congrArg (fun ts => { s with swt := ts }) (List.modify_eq_set_get _ hh)

/-- `SWT_SET`'s two writes, one after the other, replace the whole timer. -/
theorem setTimerActive_setTimerCount {s : State} {h : Nat} (hh : h < s.swt.length) (b : Bool) (c : Ticks) :
    setTimerActive (setTimerCount s h c) h b = { s with swt := s.swt.set h ⟨b, c⟩ } := by
  have hset : h < (s.swt.set h ⟨s.swt[h].active, c⟩).length := by rwa [List.length_set]
  rw [setTimerCount_eq_set hh, setTimerActive_eq_set hset]
  simp only [List.getElem_set_self, List.set_set]

/-- The test of `SWT_IST` on the timer's own count is the third state of R140. -/
theorem expired_iff_timerPhase {t : SwTimer} : expired t.active t.count = true ↔ timerPhase t = .expiredPending := by
  obtain ⟨active, count⟩ := t
  cases active
  · simp [expired, timerPhase]
  · by_cases hcount : count = 0 <;> simp [expired, timerPhase, hcount]

theorem timer_eq_of_expiredPending {t : SwTimer} (h : timerPhase t = .expiredPending) : t = ⟨true, 0⟩ := by
  have hexp := expired_iff_timerPhase.mpr h
  simp only [expired, Bool.and_eq_true, beq_iff_eq] at hexp
  obtain ⟨hactive, hcount⟩ := hexp
  rw [← hactive, ← hcount]

/-! ## Whole timer commands -/

/-- A timer command on a free port whose micro-steps leave a new bank and nothing else answers their bit and changes nothing
else (R68, R141 to R143). -/
theorem runTimerCommand_bank {h : Byte} {ms : List Micro} {s : State} {ts : List SwTimer} {rd : Option Ticks} {r : Bool}
    (hfg : s.fg = .idle) (hh : h.toNat < s.params.nSwt)
    (hrun : runMicros ms ⟨s, none, false⟩ = .ok ⟨{ s with swt := ts }, rd, r⟩) :
    runTimerCommand h ms s = .next { s with swt := ts, resp := some r } := by
  rw [runTimerCommand, handle, if_pos hh, runCommand_of_ok hfg hrun, respond, ← hfg]

section
variable {s : State} {h : Byte} (hlen : h.toNat < s.swt.length)
include hlen

theorem runMicros_swtSet (ticks : Ticks) :
    runMicros (swtSetMicros h ticks) ⟨s, none, false⟩
      = .ok ⟨{ s with swt := s.swt.set h.toNat ⟨true, truncTicks s.params.swtW ticks⟩ }, none, false⟩ := by
  have hlen' : h.toNat < (setTimerCount s h.toNat (truncTicks s.params.swtW ticks)).swt.length := by
    simpa using hlen
  rw [swtSetMicros, runMicros_cons_ok (runMicro_writeCount ticks hlen),
    runMicros_cons_ok (runMicro_writeActive true hlen'), runMicros_nil, setTimerActive_setTimerCount hlen]

theorem runMicros_swtAct (b : Byte) :
    runMicros (swtActMicros h b) ⟨s, none, false⟩
      = .ok ⟨{ s with swt := s.swt.set h.toNat ⟨boolOf b, s.swt[h.toNat].count⟩ }, none, false⟩ := by
  rw [swtActMicros, runMicros_cons_ok (runMicro_writeActive _ hlen), runMicros_nil, setTimerActive_eq_set hlen]

/-- The poll decides on the count it has read, which is the timer's own. -/
theorem runMicros_swtIst :
    runMicros (swtIstMicros h) ⟨s, none, false⟩
      = .ok (if expired s.swt[h.toNat].active s.swt[h.toNat].count then
            ⟨setTimerActive s h.toNat false, some s.swt[h.toNat].count, true⟩
          else ⟨s, some s.swt[h.toNat].count, false⟩) := by
  rw [swtIstMicros, runMicros_cons_ok (runMicro_readCount hlen), runMicros_cons_ok (runMicro_testExpiry hlen),
    runMicros_nil]

/-- A poll of an expired timer makes it idle with count 0. -/
theorem runMicros_swtIst_of_expiredPending (hexp : timerPhase s.swt[h.toNat] = .expiredPending) :
    runMicros (swtIstMicros h) ⟨s, none, false⟩
      = .ok ⟨{ s with swt := s.swt.set h.toNat ⟨false, 0⟩ }, some 0, true⟩ := by
  rw [runMicros_swtIst hlen, if_pos (expired_iff_timerPhase.mpr hexp), setTimerActive_eq_set hlen,
    timer_eq_of_expiredPending hexp]

/-- A poll of any other timer leaves the bank. -/
theorem runMicros_swtIst_of_not_expiredPending (hexp : timerPhase s.swt[h.toNat] ≠ .expiredPending) :
    runMicros (swtIstMicros h) ⟨s, none, false⟩ = .ok ⟨s, some s.swt[h.toNat].count, false⟩ := by
  rw [runMicros_swtIst hlen, if_neg (mt expired_iff_timerPhase.mp hexp)]

end

/-! ## `SWT_SET`, `SWT_IST` and `SWT_ACT` -/

/-- The truncation on numbers: the remainder is at most the operand, so 16 bits hold it, whatever the width (R141). -/
theorem truncTicks_toNat (swtW : Nat) (ticks : Ticks) :
    (truncTicks swtW ticks).toNat = ticks.toNat % 2 ^ swtW := by
  have hfits : ticks.toNat % 2 ^ swtW < 2 ^ 16 := (Nat.mod_le _ _).trans_lt ticks.isLt
  rw [truncTicks, BitVec.toNat_ofNat, Nat.mod_eq_of_lt hfits]

theorem boolOf_eq_decide (b : Byte) : boolOf b = decide (b.toNat ≠ 0) := by
  rw [Bool.eq_iff_iff, boolOf, bne_iff_ne, decide_eq_true_iff]
  exact not_congr BitVec.toNat_inj.symm

/-- Settles O46: the two micro-steps replace the timer, whose count is the truncated operand. -/
theorem swtSetArmsTheTimer : Obligations.SwtSetArmsTheTimer := by
  intro s h ticks hfg hbank hh _
  refine ⟨(congrArg (decode _) (cmdWord_or_handle_or_arg 0x20 h ticks)).trans (decode_encode_swtSet hh ticks), ?_⟩
  exact ⟨truncTicks s.params.swtW ticks, truncTicks_toNat _ ticks,
    runTimerCommand_bank hfg hh (runMicros_swtSet (hbank ▸ hh) ticks)⟩

/-- Settles O47: the poll's test is the timer's state, and the timer it makes idle had count 0. -/
theorem swtIstConsumesTheExpiry : Obligations.SwtIstConsumesTheExpiry := by
  intro s h t hfg hh ht
  obtain ⟨hlen, rfl⟩ := List.getElem?_eq_some_iff.mp ht
  refine ⟨(congrArg (decode _) (cmdWord_or_handle 0x21 h)).trans (decode_encode_swtIst hh),
    fun hexp => ?_, fun hexp => ?_⟩
  · exact runTimerCommand_bank hfg hh (runMicros_swtIst_of_expiredPending hlen hexp)
  · exact runTimerCommand_bank hfg hh (runMicros_swtIst_of_not_expiredPending hlen hexp)

/-- Settles O48: the one micro-step writes the operand's truth value and keeps the count. -/
theorem swtActLeavesTheCount : Obligations.SwtActLeavesTheCount := by
  intro s h b t hfg hh ht
  obtain ⟨hlen, rfl⟩ := List.getElem?_eq_some_iff.mp ht
  refine ⟨(congrArg (decode _) (cmdWord_or_handle_or_byte 0x22 h b)).trans (decode_encode_swtAct hh b), ?_⟩
  rw [← boolOf_eq_decide]
  exact runTimerCommand_bank hfg hh (runMicros_swtAct hlen b)

end Sys2Proof.Machine
end

section
/-! The decoder and the encoder: a word decodes exactly when it is the word of an instruction of this machine (R60, R63, R68). -/

namespace Sys2Proof

/-! ## Decoding what was encoded -/

/-- The byte word of an operation decodes with every operand. -/
theorem decode_cmdWord_byte {nSwt : Nat} {op : Byte} {f : Byte → Instr}
    (hop : ∀ w, opOf w = op → decode nSwt w = takeByte w f) (b : Byte) :
    decode nSwt (cmdWord op 0 (argOfByte b)) = some (f b) := by
  rw [hop _ (opOf_cmdWord op 0 _), takeByte_cmdWord]

/-- Settles O2: the words without an operand are evaluated; the others are words built from fields, which have those fields. -/
theorem decodeOfEncodeIsTheInstruction : Obligations.DecodeOfEncodeIsTheInstruction := by
  intro n i hwf
  cases i with
  | init | drvon | drvoff | clear | numclr | tclk | scan | blank | swtTick => rfl
  | bright b | num b | power b | pct b | drop b | fill b =>
    exact decode_cmdWord_byte (fun w hw => by simp [decode, hw]) b
  | swtSet h ticks => exact decode_encode_swtSet (of_decide_eq_true hwf) ticks
  | swtIst h => exact decode_encode_swtIst (of_decide_eq_true hwf)
  | swtAct h b => exact decode_encode_swtAct (of_decide_eq_true hwf) b

/-! ## Encoding what was decoded -/

section
variable {w : CmdWord} {i : Instr} {op : Byte} (hop : (opOf w).toNat = op.toNat)
include hop

/-- A word from the operation its code names and its own two fields. -/
theorem cmdWord_of_opOf : cmdWord op (hOf w) (argOf w) = w := by
  rw [← BitVec.eq_of_toNat_eq hop, cmdWord_fields]

theorem encode_of_takeNone {j : Instr} (hj : encode j = cmdWord op 0 0) (h : takeNone w j = some i) : encode i = w := by
  obtain ⟨⟨hh, harg⟩, ⟨⟩⟩ := Option.ite_none_right_eq_some.mp h
  rw [hj, ← cmdWord_of_opOf hop, hh, harg]

theorem encode_of_takeByte {f : Byte → Instr} (hf : ∀ b, encode (f b) = cmdWord op 0 (argOfByte b))
    (h : takeByte w f = some i) : encode i = w := by
  obtain ⟨⟨hh, hhi⟩, ⟨⟩⟩ := Option.ite_none_right_eq_some.mp h
  rw [hf, ← argOf_of_argHi_zero w hhi, ← hh, cmdWord_of_opOf hop]

theorem encode_of_takeHandleTicks {n : Nat} {f : Byte → Ticks → Instr} (hf : ∀ g t, encode (f g t) = cmdWord op g t)
    (h : takeHandleTicks n w f = some i) : encode i = w := by
  obtain ⟨-, ⟨⟩⟩ := Option.ite_none_right_eq_some.mp h
  rw [hf, cmdWord_of_opOf hop]

theorem encode_of_takeHandle {n : Nat} {f : Byte → Instr} (hf : ∀ g, encode (f g) = cmdWord op g 0)
    (h : takeHandle n w f = some i) : encode i = w := by
  obtain ⟨⟨-, harg⟩, ⟨⟩⟩ := Option.ite_none_right_eq_some.mp h
  rw [hf, ← harg, cmdWord_of_opOf hop]

theorem encode_of_takeHandleByte {n : Nat} {f : Byte → Byte → Instr}
    (hf : ∀ g b, encode (f g b) = cmdWord op g (argOfByte b)) (h : takeHandleByte n w f = some i) : encode i = w := by
  obtain ⟨⟨-, hhi⟩, ⟨⟩⟩ := Option.ite_none_right_eq_some.mp h
  rw [hf, ← argOf_of_argHi_zero w hhi, cmdWord_of_opOf hop]

end

/-- Each row of the table reads all the fields it does not require to be 0, so its instruction's word is the word read. -/
theorem encode_of_decode {n : Nat} {w : CmdWord} {i : Instr} (h : decode n w = some i) : encode i = w := by
  unfold decode at h
  split at h
  case h_1 hop => exact encode_of_takeNone (op := 0x01) hop rfl h
  case h_2 hop => exact encode_of_takeNone (op := 0x02) hop rfl h
  case h_3 hop => exact encode_of_takeNone (op := 0x03) hop rfl h
  case h_4 hop => exact encode_of_takeByte (op := 0x04) hop (fun _ => rfl) h
  case h_5 hop => exact encode_of_takeNone (op := 0x10) hop rfl h
  case h_6 hop => exact encode_of_takeByte (op := 0x11) hop (fun _ => rfl) h
  case h_7 hop => exact encode_of_takeNone (op := 0x12) hop rfl h
  case h_8 hop => exact encode_of_takeByte (op := 0x13) hop (fun _ => rfl) h
  case h_9 hop => exact encode_of_takeByte (op := 0x14) hop (fun _ => rfl) h
  case h_10 hop => exact encode_of_takeByte (op := 0x15) hop (fun _ => rfl) h
  case h_11 hop => exact encode_of_takeByte (op := 0x16) hop (fun _ => rfl) h
  case h_12 hop => exact encode_of_takeHandleTicks (op := 0x20) hop (fun _ _ => rfl) h
  case h_13 hop => exact encode_of_takeHandle (op := 0x21) hop (fun _ => rfl) h
  case h_14 hop => exact encode_of_takeHandleByte (op := 0x22) hop (fun _ _ => rfl) h
  case h_15 hop => exact encode_of_takeNone (op := 0xE0) hop rfl h
  case h_16 hop => exact encode_of_takeNone (op := 0xE1) hop rfl h
  case h_17 hop => exact encode_of_takeNone (op := 0xE2) hop rfl h
  case h_18 hop => exact encode_of_takeNone (op := 0xE3) hop rfl h
  case h_19 => cases h

/-- Settles O3: `encode_of_decode`, and what decodes is well-formed. -/
theorem encodeOfDecodeIsTheWord : Obligations.EncodeOfDecodeIsTheWord :=
  fun _ _ _ h => ⟨encode_of_decode h, wellFormed_of_decode h⟩

/-- The words of a machine are the words of its instructions. -/
theorem decode_eq_some_iff {n : Nat} {w : CmdWord} {i : Instr} :
    decode n w = some i ↔ encode i = w ∧ i.wellFormed n = true := by
  refine ⟨encodeOfDecodeIsTheWord n w i, ?_⟩
  rintro ⟨rfl, hwf⟩
  exact decodeOfEncodeIsTheInstruction n i hwf

/-- Settles O1: each word is the word of its instruction. -/
theorem specWordsDecodeToTheirInstruction : Obligations.SpecWordsDecodeToTheirInstruction := by
  simp only [Obligations.SpecWordsDecodeToTheirInstruction, decode_eq_some_iff]
  decide

end Sys2Proof
end

section
/-! The match and mask columns of the opcode table (R63). -/

namespace Sys2Proof

open Claims

/-! ## Fields under a mask -/

/-- A word that matches a row has the row's value in every field the mask keeps. -/
theorem extractLsb'_of_match {w m v : CmdWord} (h : w &&& m = v) {k n : Nat} (hm : m.extractLsb' k n = BitVec.allOnes n) :
    w.extractLsb' k n = v.extractLsb' k n := by
  rw [← h, BitVec.extractLsb'_and, hm, BitVec.and_allOnes]

/-- The encoder's word matches its own row. -/
theorem encode_match (i : Instr) : encode i &&& (opRow i).mask = (opRow i).value := by
  cases i with
  | init | drvon | drvoff | clear | numclr | tclk | scan | blank | swtTick => rfl
  | bright b | num b | power b | pct b | drop b | fill b => exact Laws.RowWord.byteWord_masked _ b
  | swtSet h ticks => exact Laws.RowWord.swtSet h ticks
  | swtIst h => exact Laws.RowWord.swtIst h
  | swtAct h b => exact Laws.RowWord.swtAct h b

/-! ## A row's instruction, read from a word -/

/-- The instruction of the row of `i` whose operands stand in the word. -/
def rowInstr (w : CmdWord) : Instr → Instr
  | .bright _ => .bright (argLo w)
  | .num _ => .num (argLo w)
  | .power _ => .power (argLo w)
  | .pct _ => .pct (argLo w)
  | .drop _ => .drop (argLo w)
  | .fill _ => .fill (argLo w)
  | .swtSet _ _ => .swtSet (hOf w) (argOf w)
  | .swtIst _ => .swtIst (hOf w)
  | .swtAct _ _ => .swtAct (hOf w) (argLo w)
  | i => i

theorem opRow_rowInstr (w : CmdWord) (i : Instr) : opRow (rowInstr w i) = opRow i := by cases i <;> rfl

theorem byteWord_of_match {w : CmdWord} {op : Byte} (h : w &&& 0xFFFFFF00 = cmdWord op 0 0) :
    cmdWord op 0 (argOfByte (argLo w)) = w := by
  have hop : opOf w = op := (extractLsb'_of_match h (by decide)).trans (opOf_cmdWord op 0 0)
  have hh : hOf w = 0 := (extractLsb'_of_match h (by decide)).trans (hOf_cmdWord op 0 0)
  have hhi : argHi w = 0 := (extractLsb'_of_match h (by decide)).trans (argHi_cmdWord op 0 0)
  rw [← argOf_of_argHi_zero w hhi, ← hop, ← hh, cmdWord_fields]

theorem setWord_of_match {w : CmdWord} {op : Byte} (h : w &&& 0xFF000000 = cmdWord op 0 0) :
    cmdWord op (hOf w) (argOf w) = w := by
  have hop : opOf w = op := (extractLsb'_of_match h (by decide)).trans (opOf_cmdWord op 0 0)
  rw [← hop, cmdWord_fields]

theorem istWord_of_match {w : CmdWord} {op : Byte} (h : w &&& 0xFF00FFFF = cmdWord op 0 0) :
    cmdWord op (hOf w) 0 = w := by
  have hop : opOf w = op := (extractLsb'_of_match h (by decide)).trans (opOf_cmdWord op 0 0)
  have harg : argOf w = 0 := (extractLsb'_of_match h (by decide)).trans (argOf_cmdWord op 0 0)
  rw [← hop, ← harg, cmdWord_fields]

theorem actWord_of_match {w : CmdWord} {op : Byte} (h : w &&& 0xFF00FF00 = cmdWord op 0 0) :
    cmdWord op (hOf w) (argOfByte (argLo w)) = w := by
  have hop : opOf w = op := (extractLsb'_of_match h (by decide)).trans (opOf_cmdWord op 0 0)
  have hhi : argHi w = 0 := (extractLsb'_of_match h (by decide)).trans (argHi_cmdWord op 0 0)
  rw [← argOf_of_argHi_zero w hhi, ← hop, cmdWord_fields]

/-- A word that matches a row is the word of the row's instruction with the word's own operands. -/
theorem encode_rowInstr {w : CmdWord} {i : Instr} (h : w &&& (opRow i).mask = (opRow i).value) :
    encode (rowInstr w i) = w := by
  cases i with
  | init | drvon | drvoff | clear | numclr | tclk | scan | blank | swtTick => exact h.symm.trans BitVec.and_allOnes
  | bright | num | power | pct | drop | fill => exact byteWord_of_match h
  | swtSet => exact setWord_of_match h
  | swtIst => exact istWord_of_match h
  | swtAct => exact actWord_of_match h

/-- The one condition of R68 the match leaves open is the handle of the three timer rows. -/
theorem wellFormed_iff_handle {n : Nat} (i : Instr) :
    i.wellFormed n = true ↔ ((opOf (opRow i).value).toNat ∈ timerCodes → (hOf (encode i)).toNat < n) := by
  cases i <;> simp [Instr.wellFormed, opRow, opOf, timerCodes, encode, hOf_cmdWord]

/-- The row of an instruction names its words (R63, R68). -/
theorem exists_decode_iff_match (n : Nat) (w : CmdWord) (j : Instr) :
    (∃ i, decode n w = some i ∧ opRow i = opRow j)
      ↔ w &&& (opRow j).mask = (opRow j).value
        ∧ ((opOf (opRow j).value).toNat ∈ timerCodes → (hOf w).toNat < n) := by
  constructor
  · rintro ⟨i, hi, hrow⟩
    obtain ⟨rfl, hwf⟩ := decode_eq_some_iff.mp hi
    rw [← hrow]
    exact ⟨encode_match i, (wellFormed_iff_handle i).mp hwf⟩
  · rintro ⟨hmatch, hhandle⟩
    have hword : encode (rowInstr w j) = w := encode_rowInstr hmatch
    refine ⟨rowInstr w j, decode_eq_some_iff.mpr ⟨hword, ?_⟩, opRow_rowInstr w j⟩
    rwa [wellFormed_iff_handle, hword, opRow_rowInstr]

/-- Settles O4: the rows are rows of instructions, every mask keeps the operation code, and no two rows have the same code. -/
theorem decodeAgreesWithMatchAndMask : Obligations.DecodeAgreesWithMatchAndMask := by
  refine ⟨fun n w r hr => ?_, ?_⟩
  · obtain ⟨j, -, rfl⟩ := List.mem_map.mp hr
    exact exists_decode_iff_match n w j
  · have hcodes : opTable.Pairwise fun a b => opOf a.value ≠ opOf b.value := by decide
    have hmasks : ∀ r ∈ opTable, opOf r.mask = 0xFF := by decide
    refine hcodes.imp_of_mem fun {a b} ha hb hne w ⟨hmatchA, hmatchB⟩ => hne ?_
    have hopA : opOf w = opOf a.value := extractLsb'_of_match hmatchA (hmasks a ha)
    have hopB : opOf w = opOf b.value := extractLsb'_of_match hmatchB (hmasks b hb)
    rw [← hopA, ← hopB]

end Sys2Proof
end

section
/-! The command port: the words it refuses (R67, R68). -/

namespace Sys2Proof.Machine

open Sys2Proof.Claims

theorem decodeCommand_eq_some_iff {n : Nat} {w : CmdWord} {i : Instr} :
    decodeCommand n w = some i ↔ decode n w = some i ∧ i.isLabel = false := by
  refine ⟨decodeCommand_some, ?_⟩
  rintro ⟨hi, hl⟩
  simp [decodeCommand, hi, hl]

/-- No clause of R68 applies to the word of a command. -/
theorem not_reserved_encode {n : Nat} {i : Instr} (hl : i.isLabel = false) (hwf : i.wellFormed n = true) :
    ¬ Reserved n (encode i) := by
  cases i <;> simp_all [Reserved, encode, opOf_cmdWord, hOf_cmdWord, argOf_cmdWord, argHi_cmdWord, argOfByte_hi,
    commandCodes, noOperandCodes, byteCodes, timerCodes, Instr.isLabel, Instr.wellFormed]

/-- A word to which no clause of R68 applies is a command's. -/
theorem exists_decodeCommand_of_not_reserved {n : Nat} {w : CmdWord} (h : ¬ Reserved n w) :
    ∃ i, decodeCommand n w = some i := by
  simp only [Reserved, not_or, not_not, not_and, not_le] at h
  obtain ⟨hcode, hh, hnone, hbyte, hist, hhandle⟩ := h
  simp only [commandCodes, List.mem_cons, List.not_mem_nil, or_false] at hcode
  obtain hop | hop | hop | hop | hop | hop | hop | hop | hop | hop | hop | hop | hop | hop := hcode <;>
    simp_all [decodeCommand, decode, takeNone, takeByte, takeHandleTicks, takeHandle, takeHandleByte, noOperandCodes,
      byteCodes, timerCodes, Instr.isLabel]

/-- What the port refuses: the reserved words (R68). -/
theorem reserved_iff_decodeCommand {n : Nat} {w : CmdWord} : Reserved n w ↔ decodeCommand n w = none := by
  constructor
  · intro hres
    rw [Option.eq_none_iff_forall_ne_some]
    intro i hi
    obtain ⟨hdec, hl⟩ := decodeCommand_some hi
    obtain ⟨rfl, hwf⟩ := decode_eq_some_iff.mp hdec
    exact not_reserved_encode hl hwf hres
  · intro hnone
    by_contra hres
    obtain ⟨i, hi⟩ := exists_decodeCommand_of_not_reserved hres
    rw [hnone] at hi
    cases hi

/-- Settles O5: presenting a word to a free port turns on what the port decodes. -/
theorem portRefusesExactlyReservedWords : Obligations.PortRefusesExactlyReservedWords := by
  intro s w rest htrace hfg
  rw [step_of_trace htrace]
  refine ⟨fun hres => ?_, fun hres => ?_⟩
  · have hnone := reserved_iff_decodeCommand.mp hres
    simp only [runTurn, presentCommand, hfg, hnone]
  · obtain ⟨i, hi⟩ := exists_decodeCommand_of_not_reserved hres
    simp only [runTurn, presentCommand, hfg, hi]

/-- Settles O7: `runTurn` of a trace word is its decoded instruction's `exec`. -/
theorem stepRunsTheDecodedInstruction : Obligations.StepRunsTheDecodedInstruction := by
  intro s w rest htrace
  rw [step_of_trace htrace]
  refine ⟨fun i hi => ?_, fun hnone => ?_⟩
  · simp only [runTurn, runWord, hi]
  · simp only [runTurn, runWord, hnone]

/-- Settles O34: a busy port refuses both ways of issuing a second command. -/
theorem oneCommandInFlightAtMost : Obligations.OneCommandInFlightAtMost := by
  intro s v n rd hfg
  refine ⟨fun i hl hwf => ?_, fun w rest htrace => ?_⟩
  · rw [exec_command hl hwf, runCommand, hfg]
  · rw [step_of_trace htrace, runTurn, presentCommand, hfg]

/-- Settles O50: `runTimerCommand` checks the handle before anything else. -/
theorem handleOutOfRangeIsRefused : Obligations.HandleOutOfRangeIsRefused := by
  intro s h b ticks hh
  have hrefused (ms : List Micro) : runTimerCommand h ms s = .refused (.handleOutOfRange h) :=
    if_neg (Nat.not_lt.mpr hh)
  exact ⟨hrefused _, hrefused _, hrefused _⟩

end Sys2Proof.Machine
end

section
/-! What a step can do, said once: what one micro-step of a command writes, and what a step of the whole machine leaves (R46). -/

namespace Sys2Proof.Machine

open Sys2Proof.Claims

/-! ## Whose micro-step it is -/

/-- The micro-step can stand in the list of the command. -/
def Micro.issuedBy (i : Instr) : Micro → Prop
  | .zero j => ownSlot i j = true
  | .copy a _ k => ownSlot i (a.base + k) = true
  | .init => i = .init
  | .bright pct => i = .bright pct
  | .drvOn => i = .drvon
  | .drvOff => i = .drvoff
  | .writeCount h ticks => i = .swtSet h ticks
  | .writeActive h _ => (∃ x, i = .swtSet h x) ∨ ∃ x, i = .swtAct h x
  | .readCount h => i = .swtIst h
  | .testExpiry h => i = .swtIst h

theorem issuedBy_zeroRange {i : Instr} {base n : Nat} (hown : ∀ j, j < n → ownSlot i (base + j) = true) {m : Micro}
    (hm : m ∈ zeroRange base n) : m.issuedBy i := by
  obtain ⟨j, hj, rfl⟩ := List.mem_map.mp hm
  exact hown j (List.mem_range.mp hj)

theorem issuedBy_copyRow {i : Instr} {a : Area} {r : Nat} (hown : ∀ j, j < a.size → ownSlot i (a.base + j) = true)
    {m : Micro} (hm : m ∈ copyRow a r) : m.issuedBy i := by
  obtain ⟨j, hj, rfl⟩ := List.mem_map.mp hm
  exact hown j (List.mem_range.mp hj)

theorem issuedBy_of_mem {p : Params} {i : Instr} {m : Micro} (hm : m ∈ microsOf p i) : m.issuedBy i := by
  cases i with
  | init | drvon | drvoff | bright =>
    obtain rfl := List.mem_singleton.mp hm
    rfl
  | clear => exact issuedBy_zeroRange (fun j hj => by simpa [ownSlot] using hj) hm
  | numclr => exact issuedBy_zeroRange (fun j hj => by simpa [ownSlot] using hj) hm
  | num v =>
    obtain hm | hm := List.mem_append.mp hm
    · exact issuedBy_copyRow (by grind [ownSlot, Area.base, Area.size]) hm
    · exact issuedBy_copyRow (by grind [ownSlot, Area.base, Area.size]) hm
  | power | pct | drop | fill => exact issuedBy_copyRow (by grind [ownSlot, Area.base, Area.size]) hm
  | swtSet h x =>
    obtain rfl | hm := List.mem_cons.mp hm
    · rfl
    · obtain rfl := List.mem_singleton.mp hm
      exact .inl ⟨x, rfl⟩
  | swtIst h =>
    obtain rfl | hm := List.mem_cons.mp hm
    · rfl
    · obtain rfl := List.mem_singleton.mp hm
      rfl
  | swtAct h b =>
    obtain rfl := List.mem_singleton.mp hm
    exact .inr ⟨b, rfl⟩
  | tclk | scan | blank | swtTick => cases hm

/-! ## What a micro-step writes -/

/-- What one micro-step of the command `i` can make of a state. -/
inductive MicroEffect (i : Instr) (s : State) : State → Prop
  | keep : MicroEffect i s s
  | slot (j : Nat) (w : Slot) (hown : ownSlot i j = true)
      (hw : paramsWf s.params = true → slotLegal s.params.rom j w = true) : MicroEffect i s (writeSlot s j w)
  | init (hi : i = .init) : MicroEffect i s (initEffect s)
  | bright (pct : Byte) (hi : i = .bright pct) : MicroEffect i s (setBrightness s (v8 pct))
  | drvOn (hi : i = .drvon) : MicroEffect i s (drvOnEffect s)
  | drvOff (hi : i = .drvoff) : MicroEffect i s (drvOffEffect s)
  | count (h : Byte) (x : Ticks) (hi : i = .swtSet h x) :
      MicroEffect i s (setTimerCount s (handle h) (truncTicks s.params.swtW x))
  | active (h : Byte) (b : Bool) (hi : i = .swtIst h ∨ (∃ x, i = .swtSet h x) ∨ ∃ x, i = .swtAct h x) :
      MicroEffect i s (setTimerActive s (handle h) b)

theorem runMicro_effect {i : Instr} {m : Micro} {p q : Progress} (hm : m.issuedBy i) (h : runMicro m p = .ok q) :
    MicroEffect i p.state q.state := by
  cases m with
  | zero j =>
    cases h
    exact .slot j _ hm fun _ => slotLegal_zero _ _
  | copy a r k =>
    simp only [runMicro] at h
    split at h
    · rename_i w hw
      cases h
      exact .slot _ w hm fun hwf => slotLegal_of_romRead hwf hw
    · cases h
  | init => cases h; exact .init hm
  | bright pct => cases h; exact .bright pct hm
  | drvOn => cases h; exact .drvOn hm
  | drvOff => cases h; exact .drvOff hm
  | writeCount g x =>
    simp only [runMicro] at h
    split at h
    · cases h
      exact .count g x hm
    · cases h
  | writeActive g b =>
    simp only [runMicro] at h
    split at h
    · cases h
      exact .active g b (.inr hm)
    · cases h
  | readCount g =>
    simp only [runMicro] at h
    split at h
    · cases h
      exact .keep
    · cases h
  | testExpiry g =>
    simp only [runMicro] at h
    split at h
    · split at h
      · cases h
        exact .active g false (.inl hm)
      · cases h
        exact .keep
    · cases h
    · cases h

/-- What a command's micro-steps, one after another, can make of a state. -/
abbrev MicroEffects (i : Instr) : State → State → Prop := Relation.ReflTransGen (MicroEffect i)

theorem runMicros_effects {i : Instr} {ms : List Micro} {p q : Progress} (hms : ∀ m ∈ ms, m.issuedBy i)
    (h : runMicros ms p = .ok q) : MicroEffects i p.state q.state := by
  induction ms generalizing p with
  | nil => cases h; exact .refl
  | cons m ms ih =>
    simp only [runMicros] at h
    split at h
    · rename_i p' hp
      exact .head (runMicro_effect (hms m List.mem_cons_self) hp) (ih (fun x hx => hms x (List.mem_cons_of_mem _ hx)) h)
    · cases h

/-! ## What a step leaves -/

/-- What one step can make of a state: nothing but the port and the schedule, one of the hardware's four effects, or micro-steps
of the acting command. -/
inductive StepEffect (s : State) : State → Prop
  | quiet (f : Fg) (r : Option Bool) : StepEffect s (withPort s f r s.trace.tail)
  | lowRate (rest : List Turn) (htrace : s.trace = .lowRate :: rest) :
      StepEffect s { raiseSwt s with trace := s.trace.tail }
  | tclk (ha : acting s = some .tclk) (hrun : s.run = true) :
      StepEffect s { clockEffect s with trace := s.trace.tail }
  | scan (ha : acting s = some .scan) (he : scanEligible s = true) (hc : s.cursor.toNat < 25) :
      StepEffect s { s with
        ovfPend := false, dir := s.buf[s.cursor.toNat].active, out := s.buf[s.cursor.toNat].anode,
        cursor := BitVec.ofNat 8 ((s.cursor.toNat + 1) % 25), trace := s.trace.tail }
  | blank (ha : acting s = some .blank) (he : blankEligible s = true) :
      StepEffect s { s with cmpPend := false, out := 0, trace := s.trace.tail }
  | swtTick (ha : acting s = some .swtTick) (hq : displayQuiet s = true) :
      StepEffect s { s with
        swtPend := false, swt := s.swt.map fun u => { u with count := decSat u.count }, trace := s.trace.tail }
  | command (i : Instr) (u : State) (f : Fg) (r : Option Bool) (ha : acting s = some i) (hl : i.isLabel = false)
      (h : MicroEffects i { s with trace := s.trace.tail } u) : StepEffect s { u with fg := f, resp := r }

theorem exec_label_effect {i : Instr} {s t : State} (ha : acting s = some i) (hl : i.isLabel = true)
    (h : exec i { s with trace := s.trace.tail } = .next t) : StepEffect s t := by
  cases i with
  | tclk =>
    cases hrun : s.run with
    | true =>
      cases (exec_tclk_of_running (s := { s with trace := s.trace.tail }) hrun).symm.trans h
      exact .tclk ha hrun
    | false =>
      cases (exec_tclk_of_stopped (s := { s with trace := s.trace.tail }) hrun).symm.trans h
      exact .quiet s.fg s.resp
  | scan =>
    obtain ⟨he, hc, rfl⟩ := execScan_next h
    exact .scan ha he hc
  | blank =>
    obtain ⟨he, rfl⟩ := execBlank_next h
    exact .blank ha he
  | swtTick =>
    obtain ⟨hq, rfl⟩ := execSwtTick_next h
    exact .swtTick ha hq
  | _ => cases hl

theorem exec_command_effect {i : Instr} {s t : State} (ha : acting s = some i) (hl : i.isLabel = false)
    (hwf : i.wellFormed s.params.nSwt = true) (h : exec i { s with trace := s.trace.tail } = .next t) : StepEffect s t := by
  rw [exec_command (s := { s with trace := s.trace.tail }) hl hwf] at h
  obtain ⟨-, p, hrun, rfl⟩ := runCommand_next h
  exact .command i p.state .idle (some p.ret) ha hl (runMicros_effects (fun _ => issuedBy_of_mem) hrun)

theorem hostMicro_effect {s t : State} {ts : List Turn} (htrace : s.trace = .micro :: ts)
    (h : hostMicro { s with trace := s.trace.tail } = .next t) : StepEffect s t := by
  obtain ⟨-, rfl⟩ | ⟨w, n, rd, i, m, p, hfg, hi, hm, hrun, ht⟩ := hostMicro_next h
  · exact .quiet s.fg s.resp
  · have hfg' : s.fg = .busy w n rd := hfg
    have ha : acting s = some i := by
      simp only [acting, htrace, hfg']
      exact hi
    have heff : MicroEffects i { s with trace := s.trace.tail } p.state :=
      .single (runMicro_effect (issuedBy_of_mem (List.mem_of_getElem? hm)) hrun)
    obtain ⟨-, rfl⟩ | ⟨-, rfl⟩ := ht
    · exact .command i p.state .idle (some p.ret) ha (decodeCommand_some hi).2 heff
    · exact .command i p.state (.busy w (n + 1) p.read) p.state.resp ha (decodeCommand_some hi).2 heff

/-- The servicer's turn is the service of the event it takes. -/
theorem runService_eq (s : State) :
    runService s = match nextEvent s with
      | some e => exec (eventInstr e) s
      | none => .next s := by
  unfold runService
  cases nextEvent s with
  | none => rfl
  | some e => cases e <;> rfl

theorem eventInstr_isLabel (e : Event) : (eventInstr e).isLabel = true := by cases e <;> rfl

theorem step_effect {s t : State} (h : step s = .next t) : StepEffect s t := by
  obtain ⟨turn, ts, htrace, hturn⟩ := step_next h
  have hts : ts = s.trace.tail := (congrArg List.tail htrace).symm
  rw [hts] at hturn
  cases turn with
  | word w =>
    simp only [runTurn, runWord] at hturn
    split at hturn
    · rename_i i hi
      have ha : acting s = some i := by simpa only [acting, htrace] using hi
      cases hl : i.isLabel with
      | true => exact exec_label_effect ha hl hturn
      | false => exact exec_command_effect ha hl (wellFormed_of_decode hi) hturn
    · cases hturn
  | present w =>
    obtain ⟨-, -, rfl⟩ := presentCommand_next hturn
    exact .quiet (.busy w 0 none) none
  | micro => exact hostMicro_effect htrace hturn
  | service =>
    have hservice : runService { s with trace := s.trace.tail } = .next t := hturn
    rw [runService_eq] at hservice
    split at hservice
    · rename_i e he
      have ha : acting s = some (eventInstr e) := by
        simp only [acting, htrace]
        exact congrArg (Option.map eventInstr) he
      exact exec_label_effect ha (eventInstr_isLabel e) hservice
    · cases hservice
      exact .quiet s.fg s.resp
  | lowRate =>
    cases hturn
    exact .lowRate _ htrace

end Sys2Proof.Machine
end

section
/-! Who writes what: the frame of every register over every step (R11 to R20, R29, R110, R162). -/

namespace Sys2Proof.Machine

open Sys2Proof.Claims

/-! ## The registers a command writes, over all its micro-steps -/

section
variable {i : Instr} {s u : State} (h : MicroEffects i s u)
include h

theorem MicroEffects.params : u.params = s.params := by
  induction h with
  | refl => rfl
  | tail _ hstep ih => cases hstep <;> exact ih

theorem MicroEffects.trace : u.trace = s.trace := by
  induction h with
  | refl => rfl
  | tail _ hstep ih => cases hstep <;> exact ih

theorem MicroEffects.cursor : u.cursor = s.cursor := by
  induction h with
  | refl => rfl
  | tail _ hstep ih => cases hstep <;> exact ih

theorem MicroEffects.swtPend : u.swtPend = s.swtPend := by
  induction h with
  | refl => rfl
  | tail _ hstep ih => cases hstep <;> exact ih

theorem MicroEffects.buf {j : Nat} (hj : j < 25) : u.buf[j] = s.buf[j] ∨ ownSlot i j = true := by
  induction h with
  | refl => exact .inl rfl
  | tail _ hstep ih =>
    cases hstep with
    | slot k w hown =>
      by_cases hk : k = j
      · exact .inr (hk ▸ hown)
      · simpa only [writeSlot_buf, Vector.getElem_setIfInBounds_ne hj hk] using ih
    | _ => exact ih

theorem MicroEffects.port : (u.dir = s.dir ∧ u.out = s.out) ∨ (i = .drvoff ∧ u.dir = 0 ∧ u.out = 0) := by
  induction h with
  | refl => exact .inl ⟨rfl, rfl⟩
  | tail _ hstep ih =>
    cases hstep with
    | drvOff hi => exact .inr ⟨hi, rfl, rfl⟩
    | _ => exact ih

theorem MicroEffects.cnt : u.cnt = s.cnt ∨ i = .init := by
  induction h with
  | refl => exact .inl rfl
  | tail _ hstep ih =>
    cases hstep with
    | init hi => exact .inr hi
    | _ => exact ih

theorem MicroEffects.cmp : u.cmp = s.cmp ∨ i = .init ∨ ∃ p, i = .bright p := by
  induction h with
  | refl => exact .inl rfl
  | tail _ hstep ih =>
    cases hstep with
    | init hi => exact .inr (.inl hi)
    | bright p hi => exact .inr (.inr ⟨p, hi⟩)
    | _ => exact ih

theorem MicroEffects.enables :
    (u.ovfEn = s.ovfEn ∧ u.cmpEn = s.cmpEn) ∨ (i = .init ∧ u.ovfEn = true ∧ u.cmpEn = true) := by
  induction h with
  | refl => exact .inl ⟨rfl, rfl⟩
  | tail _ hstep ih =>
    cases hstep with
    | init hi => exact .inr ⟨hi, rfl, rfl⟩
    | _ => exact ih

theorem MicroEffects.flags :
    (u.ovfPend = s.ovfPend ∧ u.cmpPend = s.cmpPend)
      ∨ ((i = .drvon ∨ i = .init) ∧ u.ovfPend = false ∧ u.cmpPend = false) := by
  induction h with
  | refl => exact .inl ⟨rfl, rfl⟩
  | tail _ hstep ih =>
    cases hstep with
    | init hi => exact .inr ⟨.inr hi, rfl, rfl⟩
    | drvOn hi => exact .inr ⟨.inl hi, rfl, rfl⟩
    | _ => exact ih

theorem MicroEffects.run :
    u.run = s.run ∨ i = .drvon ∨ (i = .drvoff ∧ u.run = false) ∨ (i = .init ∧ s.params.initRun = true) := by
  induction h with
  | refl => exact .inl rfl
  | @tail v w hpre hstep ih =>
    cases hstep with
    | init hi =>
      cases hinit : s.params.initRun with
      | true => exact .inr (.inr (.inr ⟨hi, rfl⟩))
      | false =>
        have hkeep : (initEffect v).run = v.run := by
          simp [initEffect, MicroEffects.params hpre, hinit]
        simpa only [hkeep, hinit] using ih
    | drvOn hi => exact .inr (.inl hi)
    | drvOff hi => exact .inr (.inr (.inl ⟨hi, rfl⟩))
    | _ => exact ih

theorem MicroEffects.swt_length : u.swt.length = s.swt.length := by
  induction h with
  | refl => rfl
  | tail _ hstep ih =>
    cases hstep with
    | count | active => simpa using ih
    | _ => exact ih

theorem MicroEffects.timer (k : Nat) :
    (u.swt[k]?.map SwTimer.active = s.swt[k]?.map SwTimer.active
      ∨ ∃ h : Byte, h.toNat = k ∧ (i = .swtIst h ∨ (∃ x, i = .swtSet h x) ∨ ∃ x, i = .swtAct h x))
    ∧ (u.swt[k]?.map SwTimer.count = s.swt[k]?.map SwTimer.count ∨ ∃ h : Byte, h.toNat = k ∧ ∃ x, i = .swtSet h x) := by
  induction h with
  | refl => exact ⟨.inl rfl, .inl rfl⟩
  | @tail v w _ hstep ih =>
    cases hstep with
    | count g x hi =>
      by_cases hk : g.toNat = k
      · exact ⟨.inr ⟨g, hk, .inr (.inl ⟨x, hi⟩)⟩, .inr ⟨g, hk, x, hi⟩⟩
      · simpa [handle, List.getElem?_modify, hk] using ih
    | active g b hi =>
      by_cases hk : g.toNat = k
      · refine ⟨.inr ⟨g, hk, hi⟩, ?_⟩
        simpa [handle, List.getElem?_modify, hk, Function.comp_def] using ih.2
      · simpa [handle, List.getElem?_modify, hk] using ih
    | _ => exact ih

end

/-! ## The rules over every step -/

theorem StepEffect.params {s t : State} (h : StepEffect s t) : t.params = s.params := by
  cases h with
  | command i u f r ha hl heff => exact heff.params
  | _ => rfl

/-- Every step takes one entry off the schedule. -/
theorem StepEffect.trace {s t : State} (h : StepEffect s t) : t.trace = s.trace.tail := by
  cases h with
  | command i u f r ha hl heff => exact heff.trace
  | _ => rfl

/-- Settles O59: every step keeps the parameters, so every run does. -/
theorem parametersNeverChange : Obligations.ParametersNeverChange := by
  intro k
  induction k with
  | zero =>
    intro s t h
    cases h
    rfl
  | succ k ih =>
    intro s t h
    obtain ⟨s', hstep, hrun⟩ := run_succ_next h
    exact (ih s' t hrun).trans (step_effect hstep).params

/-- Settles O53: only micro-steps write slots, and only those of their own command. -/
theorem slotsChangeOnlyForTheirOwnCommands : Obligations.SlotsChangeOnlyForTheirOwnCommands := by
  intro s t j hj h hne
  cases step_effect h with
  | command i u f r ha hl heff => exact ⟨i, ha, (heff.buf hj).resolve_left hne⟩
  | _ => exact absurd rfl hne

/-- Settles O54: the one effect that moves the cursor is `SCAN`'s. -/
theorem cursorMovesOnlyInScan : Obligations.CursorMovesOnlyInScan := by
  intro s t h hne
  cases step_effect h with
  | scan ha he hc => exact ⟨ha, (BitVec.toNat_ofNat _ _).trans (Nat.mod_eq_of_lt (by omega))⟩
  | command i u f r ha hl heff => exact absurd heff.cursor hne
  | _ => exact absurd rfl hne

/-- Settles O55: two hardware effects write the port, and one micro-step does, which is all of `DRVOFF`. -/
theorem portChangesOnlyForItsWriters : Obligations.PortChangesOnlyForItsWriters := by
  intro s t h
  cases step_effect h with
  | scan ha => exact ⟨fun _ => .inl ha, fun _ => .inl ha⟩
  | blank ha => exact ⟨fun hne => absurd rfl hne, fun _ => .inr ⟨.inl ha, rfl⟩⟩
  | command i u f r ha hl heff =>
    obtain ⟨hdir, hout⟩ | ⟨rfl, hdir, hout⟩ := heff.port
    · exact ⟨fun hne => absurd hdir hne, fun hne => absurd hout hne⟩
    · exact ⟨fun _ => .inr ⟨ha, hdir⟩, fun _ => .inr ⟨.inr ha, hout⟩⟩
  | _ => exact ⟨fun hne => absurd rfl hne, fun hne => absurd rfl hne⟩

/-- Settles O56: the clock writes `CNT`; every other write of these registers is a micro-step's. -/
theorem timerRegistersChangeOnlyForTheirWriters : Obligations.TimerRegistersChangeOnlyForTheirWriters := by
  intro s t h
  cases step_effect h with
  | tclk ha =>
    exact ⟨fun _ => .inl ha, fun hne => absurd rfl hne, fun hne => absurd rfl hne, fun hne => absurd rfl hne,
      fun hne => absurd rfl hne⟩
  | command i u f r ha hl heff =>
    refine ⟨fun hne => ?_, fun hne => ?_, fun hne => ?_, ?_⟩
    · obtain rfl := heff.cnt.resolve_left hne
      exact .inr ha
    · obtain rfl | ⟨p, rfl⟩ := heff.cmp.resolve_left hne
      · exact .inl ha
      · exact .inr ⟨p, ha⟩
    · obtain rfl | ⟨rfl, -⟩ | ⟨rfl, hinit⟩ := heff.run.resolve_left hne
      · exact .inl ha
      · exact .inr (.inl ha)
      · exact .inr (.inr ⟨ha, hinit⟩)
    · obtain ⟨hovf, hcmp⟩ | ⟨rfl, hovf, hcmp⟩ := heff.enables
      · exact ⟨fun hne => absurd hovf hne, fun hne => absurd hcmp hne⟩
      · exact ⟨fun _ => ⟨ha, hovf⟩, fun _ => ⟨ha, hcmp⟩⟩
  | _ =>
    exact ⟨fun hne => absurd rfl hne, fun hne => absurd rfl hne, fun hne => absurd rfl hne, fun hne => absurd rfl hne,
      fun hne => absurd rfl hne⟩

/-- Settles O57: a clock only raises the display flags, a service clears its own, `DRVON` and `INIT` clear both. -/
theorem pendingFlagsRiseAndFallByRule : Obligations.PendingFlagsRiseAndFallByRule := by
  refine ⟨fun s t h => ?_, fun s rest htrace => step_of_trace htrace⟩
  cases step_effect h with
  | quiet => simp_all [withPort]
  | lowRate rest htrace => simp_all
  | tclk ha => simp_all [clockEffect]
  | scan ha => simp_all
  | blank ha => simp_all
  | swtTick ha => simp_all
  | command i u f r ha hl heff =>
    have hswt : u.swtPend = s.swtPend := heff.swtPend
    obtain ⟨hovf, hcmp⟩ | ⟨rfl | rfl, hovf, hcmp⟩ := heff.flags <;> simp_all

/-- Settles O58: the tick writes every count and no flag; a micro-step writes the timer its command names. -/
theorem timersChangeOnlyForTheirOperations : Obligations.TimersChangeOnlyForTheirOperations := by
  intro s t h
  cases step_effect h with
  | swtTick ha =>
    refine ⟨List.length_map _, fun k a b hka hkb => ⟨fun hne => ?_, fun _ => .inl ha⟩⟩
    simp only [List.getElem?_map, hka, Option.map_some, Option.some.injEq] at hkb
    exact absurd (congrArg SwTimer.active hkb.symm) hne
  | command i u f r ha hl heff =>
    refine ⟨heff.swt_length, fun k a b hka hkb => ?_⟩
    have htimer := heff.timer k
    simp only [hka, hkb, Option.map_some, Option.some.injEq] at htimer
    obtain ⟨hactive, hcount⟩ := htimer
    refine ⟨fun hne => ?_, fun hne => ?_⟩
    · obtain ⟨g, hg, hi⟩ := hactive.resolve_left hne
      refine ⟨g, hg, ?_⟩
      simpa only [ha, Option.some.injEq] using hi
    · obtain ⟨g, hg, x, rfl⟩ := hcount.resolve_left hne
      exact .inr ⟨g, hg, x, ha⟩
  | _ =>
    refine ⟨rfl, fun k a b hka hkb => ?_⟩
    cases hka.symm.trans hkb
    exact ⟨fun hne => absurd rfl hne, fun hne => absurd rfl hne⟩

/-- Settles O60: each hardware step is known register by register. -/
theorem eventsNeverTouchTheHostsState : Obligations.EventsNeverTouchTheHostsState := by
  intro s t i hl h
  cases i with
  | tclk =>
    cases (execTclk_eq s).symm.trans h
    split <;> simp [clockEffect]
  | scan =>
    obtain ⟨-, -, rfl⟩ := execScan_next h
    simp
  | blank =>
    obtain ⟨-, rfl⟩ := execBlank_next h
    simp
  | swtTick =>
    obtain ⟨-, rfl⟩ := execSwtTick_next h
    simp [Function.comp_def]
  | _ => cases hl

/-! ## The off state -/

/-- Settles O32: without `RUN` no hardware step that drives a line is taken, and a command's only writes to the port float it. -/
theorem nothingIsDrivenWhileOff : Obligations.NothingIsDrivenWhileOff := by
  intro s t hrun hdir hout h
  cases step_effect h with
  | tclk ha hr => rw [hrun] at hr; cases hr
  | scan ha he => rw [scanEligible_of_stopped hrun] at he; cases he
  | blank ha he => rw [blankEligible_of_stopped hrun] at he; cases he
  | command i u f r ha hl heff =>
    have hport : u.dir = 0 ∧ u.out = 0 := by
      obtain ⟨hd, ho⟩ | ⟨-, hd, ho⟩ := heff.port
      · exact ⟨hd.trans hdir, ho.trans hout⟩
      · exact ⟨hd, ho⟩
    refine ⟨hport.1, hport.2, fun hon => ?_⟩
    obtain hkeep | rfl | ⟨-, hoff⟩ | ⟨rfl, hinit⟩ := heff.run
    · exact absurd (hkeep.symm.trans hon) (by simp [hrun])
    · exact .inl ha
    · exact absurd (hoff.symm.trans hon) (by decide)
    · exact .inr ⟨ha, hinit⟩
  | _ => exact ⟨hdir, hout, fun hon => absurd (hrun.symm.trans hon) (by decide)⟩

end Sys2Proof.Machine
end

section
/-! The invariant of the reachable state (R36), and that nothing legal faults (R160, R161). -/

namespace Sys2Proof.Machine

open Sys2Proof.Claims

/-- No level on any line is no level on a floating line (R21). -/
theorem zero_subset (m : Mask) : subset 0 m = true := by simp [subset]

/-! ## Reset -/

theorem legal_resetWith {p : Params} (h : paramsWf p = true) : Legal (State.resetWith p) where
  params := h
  cursor := Nat.zero_le _
  cnt := Nat.zero_le _
  cmp := Nat.zero_le _
  buf i hi := by simp [slotLegal_zero]
  port := zero_subset _
  bank := by simp
  counts t ht := by
    obtain rfl := List.eq_of_mem_replicate ht
    exact Nat.two_pow_pos _
  fg := rfl

theorem paramsWf_defaultParams : paramsWf defaultParams = true := by decide

/-- Settles O13: construction checks the contract, and the default parameters pass it. -/
theorem resetIsLegal : Obligations.ResetIsLegal := by
  refine ⟨legal_resetWith paramsWf_defaultParams, fun p s h => ?_⟩
  obtain ⟨hp, ⟨⟩⟩ := Option.ite_none_right_eq_some.mp h
  exact legal_resetWith hp

/-- Settles O12: `resetWith` writes the values out, and with `DIR` 0 every line floats. -/
theorem resetLeavesEverythingOff : Obligations.ResetLeavesEverythingOff := by
  intro p
  refine ⟨fun i hi => by simp, rfl, rfl, rfl, rfl, rfl, rfl, rfl, rfl, pins_of_dir_zero rfl, rfl, fun t ht => ?_, ?_, rfl, rfl⟩
  · obtain rfl := List.eq_of_mem_replicate ht
    exact ⟨rfl, rfl⟩
  · simp

/-! ## The effects keep the invariant -/

/-- What is legal stays so under another port and schedule, if the port's progress is legal. -/
theorem Legal.withFg {s : State} (h : Legal s) {f : Fg} (hf : fgLegal s.params f = true) (r : Option Bool)
    (ts : List Turn) : Legal { s with fg := f, resp := r, trace := ts } :=
  ⟨h.params, h.cursor, h.cnt, h.cmp, h.buf, h.port, h.bank, h.counts, hf⟩

theorem legal_setBrightness {s : State} (h : Legal s) (pct : Nat) : Legal (setBrightness s pct) where
  __ := h
  cmp := by
    rw [setBrightness_cmp_toNat (paramsWf_bounds h.params).2.1]
    exact brightMap_le _ _

theorem legal_modifyTimer {s : State} (h : Legal s) (k : Nat) {f : SwTimer → SwTimer}
    (hf : ∀ t, t.count.toNat < 2 ^ s.params.swtW → (f t).count.toNat < 2 ^ s.params.swtW) :
    Legal { s with swt := s.swt.modify k f } where
  __ := h
  bank := (List.length_modify _ _ _).trans h.bank
  counts t ht := by
    obtain ⟨j, hj, rfl⟩ := List.mem_iff_getElem.mp ht
    rw [List.length_modify] at hj
    rw [List.getElem_modify]
    split
    · exact hf _ (h.counts _ (List.getElem_mem hj))
    · exact h.counts _ (List.getElem_mem hj)

theorem MicroEffect.legal {i : Instr} {s u : State} (h : MicroEffect i s u) (hs : Legal s) : Legal u := by
  cases h with
  | keep => exact hs
  | slot j w _ hw => exact { hs with buf := writeSlot_legal hs.buf (hw hs.params) }
  | init =>
    have hcount : Legal (clearPending (setCount s 0)) := { hs with cnt := Nat.zero_le _ }
    exact { legal_setBrightness hcount s.params.initBrightPct with }
  | bright pct => exact legal_setBrightness hs _
  | drvOn => exact { hs with }
  | drvOff => exact { hs with port := zero_subset _ }
  | count g x => exact legal_modifyTimer hs _ fun _ _ => truncTicks_lt _ x
  | active g b => exact legal_modifyTimer hs _ fun _ ht => ht

theorem MicroEffects.legal {i : Instr} {s u : State} (h : MicroEffects i s u) (hs : Legal s) : Legal u := by
  induction h with
  | refl => exact hs
  | tail _ hstep ih => exact hstep.legal ih

theorem StepEffect.legal {s t : State} (h : StepEffect s t) (hs : Legal s) (hf : fgLegal t.params t.fg = true) :
    Legal t := by
  obtain ⟨-, hmax, -⟩ := paramsWf_bounds hs.params
  cases h with
  | quiet f r => exact hs.withFg hf r _
  | lowRate => exact { hs with }
  | tclk =>
    refine { hs with cnt := ?_ }
    have hcnt := hs.cnt
    show (nextCount s).toNat ≤ s.params.timerMax
    rw [nextCount_toNat hmax hcnt]
    split <;> omega
  | scan _ _ hc =>
    refine { hs with cursor := ?_, port := ?_ }
    · show (BitVec.ofNat 8 ((s.cursor.toNat + 1) % 25)).toNat ≤ 24
      rw [BitVec.toNat_ofNat]
      omega
    · exact subset_of_slotLegal hs.params (hs.buf _ hc)
  | blank => exact { hs with port := zero_subset _ }
  | swtTick =>
    refine { hs with bank := (List.length_map _).trans hs.bank, counts := fun t ht => ?_ }
    obtain ⟨u, hu, rfl⟩ := List.mem_map.mp ht
    exact ((decSat_toNat u.count).le.trans (Nat.sub_le _ _)).trans_lt (hs.counts u hu)
  | command i u f r _ _ heff => exact (heff.legal (hs.withTrace _)).withFg hf r _

/-! ## The command in flight -/

theorem fgLegal_busy_iff {p : Params} {w : CmdWord} {n : Nat} {rd : Option Ticks} :
    fgLegal p (.busy w n rd) = true
      ↔ ∃ i m, decodeCommand p.nSwt w = some i ∧ (microsOf p i)[n]? = some m ∧ readDone m rd = true := by
  cases hdec : decodeCommand p.nSwt w with
  | none => simp [fgLegal, hdec]
  | some i => cases hm : (microsOf p i)[n]? <;> simp [fgLegal, hdec, hm]

/-- The first micro-step of a command decides on no value read. -/
theorem readDone_first {p : Params} {i : Instr} {m : Micro} (hm : (microsOf p i)[0]? = some m) (rd : Option Ticks) :
    readDone m rd = true := by
  cases m with
  | testExpiry h =>
    obtain rfl : i = .swtIst h := issuedBy_of_mem (List.mem_of_getElem? hm)
    cases hm
  | _ => rfl

/-- The one micro-step that decides on a value comes right after the one that reads it (R142). -/
theorem readDone_next {p : Params} {i : Instr} {n : Nat} {m m' : Micro} {q q' : Progress}
    (hm : (microsOf p i)[n]? = some m) (hm' : (microsOf p i)[n + 1]? = some m') (hrun : runMicro m q = .ok q') :
    readDone m' q'.read = true := by
  cases m' with
  | testExpiry h =>
    obtain rfl : i = .swtIst h := issuedBy_of_mem (List.mem_of_getElem? hm')
    obtain rfl : n = 0 := by
      have hlt : n + 1 < 2 := (List.getElem?_eq_some_iff.mp hm').1
      omega
    obtain rfl : Micro.readCount h = m := Option.some.inj hm
    simp only [runMicro] at hrun
    split at hrun
    · cases hrun
      rfl
    · cases hrun
  | _ => rfl

theorem fgLegal_present {p : Params} {w : CmdWord} {i : Instr} (hi : decodeCommand p.nSwt w = some i) :
    fgLegal p (.busy w 0 none) = true := by
  have hpos := microsOf_length_pos p (decodeCommand_some hi).2
  exact fgLegal_busy_iff.mpr ⟨i, _, hi, List.getElem?_eq_getElem hpos, readDone_first (List.getElem?_eq_getElem hpos) none⟩

theorem fgLegal_hostMicro {s t : State} (hs : fgLegal s.params s.fg = true) (h : hostMicro s = .next t) :
    fgLegal s.params t.fg = true := by
  obtain ⟨-, rfl⟩ | ⟨w, n, rd, i, m, q, -, hi, hm, hrun, ⟨-, rfl⟩ | ⟨hlast, rfl⟩⟩ := hostMicro_next h
  · exact hs
  · rfl
  · have hn : n < (microsOf s.params i).length := (List.getElem?_eq_some_iff.mp hm).1
    have hm' := List.getElem?_eq_getElem (show n + 1 < (microsOf s.params i).length by omega)
    exact fgLegal_busy_iff.mpr ⟨i, _, hi, hm', readDone_next hm hm' hrun⟩

theorem fgLegal_exec {i : Instr} {s t : State} (hs : fgLegal s.params s.fg = true)
    (hwf : i.wellFormed s.params.nSwt = true) (h : exec i s = .next t) : fgLegal s.params t.fg = true := by
  cases hl : i.isLabel with
  | true =>
    obtain ⟨-, -, -, -, -, hfg, -⟩ := eventsNeverTouchTheHostsState s t i hl h
    rwa [hfg]
  | false =>
    rw [exec_command hl hwf] at h
    obtain ⟨-, q, -, rfl⟩ := runCommand_next h
    rfl

theorem fgLegal_runTurn {turn : Turn} {s t : State} (hs : fgLegal s.params s.fg = true) (h : runTurn turn s = .next t) :
    fgLegal s.params t.fg = true := by
  cases turn with
  | word w =>
    simp only [runTurn, runWord] at h
    split at h
    · rename_i i hi
      exact fgLegal_exec hs (wellFormed_of_decode hi) h
    · cases h
  | present w =>
    obtain ⟨-, ⟨i, hi⟩, rfl⟩ := presentCommand_next h
    exact fgLegal_present hi
  | micro => exact fgLegal_hostMicro hs h
  | service =>
    have hservice : runService s = .next t := h
    rw [runService_eq] at hservice
    split at hservice
    · rename_i e he
      exact fgLegal_exec hs (by cases e <;> rfl) hservice
    · cases hservice
      exact hs
  | lowRate =>
    cases h
    exact hs

theorem step_legal {s t : State} (hs : Legal s) (h : step s = .next t) : Legal t := by
  refine (step_effect h).legal hs ?_
  obtain ⟨turn, ts, -, hturn⟩ := step_next h
  rw [(step_effect h).params]
  exact fgLegal_runTurn (s := { s with trace := ts }) hs.fg hturn

/-- Settles O14: `StepEffect.legal` for the registers, `fgLegal_runTurn` for the command in flight. -/
theorem everyStepKeepsTheInvariant : Obligations.EveryStepKeepsTheInvariant := fun _ _ => step_legal

theorem run_legal {k : Nat} {s t : State} (hs : Legal s) (h : Sys2Proof.core.run k s = .next t) : Legal t := by
  induction k generalizing s with
  | zero => cases h; exact hs
  | succ k ih =>
    obtain ⟨s', hstep, hrun⟩ := run_succ_next h
    exact ih (step_legal hs hstep) hrun

/-! ## Nothing legal faults -/

/-- A micro-step's ROM entry and its timer exist on the machine. -/
def Micro.fits (p : Params) : Micro → Prop
  | .copy a r j => r < areaRows p a ∧ j < a.size
  | .writeCount h _ | .writeActive h _ | .readCount h | .testExpiry h => h.toNat < p.nSwt
  | .zero _ | .init | .bright _ | .drvOn | .drvOff => True

theorem fits_zeroRange {p : Params} {base n : Nat} {m : Micro} (hm : m ∈ zeroRange base n) : m.fits p := by
  obtain ⟨j, -, rfl⟩ := List.mem_map.mp hm
  trivial

theorem fits_copyRow {p : Params} {a : Area} {r : Nat} (hr : r < areaRows p a) {m : Micro} (hm : m ∈ copyRow a r) :
    m.fits p := by
  obtain ⟨j, hj, rfl⟩ := List.mem_map.mp hm
  exact ⟨hr, List.mem_range.mp hj⟩

/-- The rows a command shows are rows of its tables, and a well-formed command's handle names a timer (R43, R62). -/
theorem fits_of_mem {p : Params} (hp : paramsWf p = true) {i : Instr} (hwf : i.wellFormed p.nSwt = true) {m : Micro}
    (hm : m ∈ microsOf p i) : m.fits p := by
  obtain ⟨-, -, htens, hunits, hfill, hdroplet, -⟩ := paramsWf_bounds hp
  cases i with
  | init | drvon | drvoff | bright =>
    obtain rfl := List.mem_singleton.mp hm
    trivial
  | clear | numclr => exact fits_zeroRange hm
  | num v =>
    obtain ⟨ht, hu⟩ := numRows_lt v
    obtain hm | hm := List.mem_append.mp hm
    · exact fits_copyRow (a := .tens) (ht.trans_le htens) hm
    · exact fits_copyRow (a := .units) (hu.trans_le hunits) hm
  | power b | pct b => exact fits_copyRow (onOffRow_lt b) hm
  | drop level => exact fits_copyRow (a := .droplet) (levelRow_lt level hdroplet) hm
  | fill level => exact fits_copyRow (a := .fill) (levelRow_lt level hfill) hm
  | swtSet h _ | swtIst h =>
    have hh : h.toNat < p.nSwt := of_decide_eq_true hwf
    obtain rfl | rfl := List.mem_pair.mp hm <;> exact hh
  | swtAct h _ =>
    have hh : h.toNat < p.nSwt := of_decide_eq_true hwf
    obtain rfl := List.mem_singleton.mp hm
    exact hh
  | tclk | scan | blank | swtTick => cases hm

theorem runMicro_of_legal {s : State} (hs : Legal s) {m : Micro} (hfits : m.fits s.params) {rd : Option Ticks}
    (hrd : readDone m rd = true) (b : Bool) : ∃ q, runMicro m ⟨s, rd, b⟩ = .ok q := by
  have hbank {h : Byte} (hh : h.toNat < s.params.nSwt) : h.toNat < s.swt.length := hs.bank ▸ hh
  cases m with
  | zero | init | bright | drvOn | drvOff => exact ⟨_, rfl⟩
  | copy a r j =>
    obtain ⟨w, hw, -⟩ := romRead_of_wf hs.params hfits.1 hfits.2
    simp only [runMicro, hw]
    exact ⟨_, rfl⟩
  | writeCount h x => exact ⟨_, runMicro_writeCount x (hbank hfits)⟩
  | writeActive h x => exact ⟨_, runMicro_writeActive x (hbank hfits)⟩
  | readCount h => exact ⟨_, runMicro_readCount (hbank hfits)⟩
  | testExpiry h =>
    obtain ⟨c, rfl⟩ := Option.isSome_iff_exists.mp hrd
    exact ⟨_, runMicro_testExpiry (hbank hfits)⟩

/-- From a legal state a command's micro-steps run, as many of them as one likes, and the next one finds the value it needs. -/
theorem runMicros_take_of_legal {s : State} (hs : Legal s) {i : Instr} (hwf : i.wellFormed s.params.nSwt = true) (n : Nat)
    (hn : n ≤ (microsOf s.params i).length) :
    ∃ q, runMicros ((microsOf s.params i).take n) ⟨s, none, false⟩ = .ok q
      ∧ ∀ m, (microsOf s.params i)[n]? = some m → readDone m q.read = true := by
  induction n with
  | zero => exact ⟨_, rfl, fun m hm => readDone_first hm none⟩
  | succ n ih =>
    obtain ⟨q, hq, hrd⟩ := ih (by omega)
    obtain ⟨m, hm⟩ : ∃ m, (microsOf s.params i)[n]? = some m := ⟨_, List.getElem?_eq_getElem (by omega)⟩
    have heff : MicroEffects i s q.state :=
      runMicros_effects (fun m hm => issuedBy_of_mem (List.mem_of_mem_take hm)) hq
    have hfits := fits_of_mem hs.params hwf (List.mem_of_getElem? hm)
    rw [← heff.params] at hfits
    obtain ⟨q', hq'⟩ := runMicro_of_legal (heff.legal hs) hfits (hrd _ hm) q.ret
    refine ⟨q', ?_, fun m' hm' => readDone_next hm hm' hq'⟩
    rw [List.take_add_one, hm, runMicros_append_ok hq]
    exact runMicros_cons_ok hq'

/-- From a legal state every command of the machine completes when the port is free (R161). -/
theorem exec_command_of_legal {s : State} (hs : Legal s) (hfg : s.fg = .idle) {i : Instr} (hl : i.isLabel = false)
    (hwf : i.wellFormed s.params.nSwt = true) : ∃ t, exec i s = .next t := by
  obtain ⟨q, hq, -⟩ := runMicros_take_of_legal hs hwf _ le_rfl
  rw [List.take_length] at hq
  exact ⟨_, (exec_command hl hwf).trans (runCommand_of_ok hfg hq)⟩

theorem exec_ne_fault {s : State} (hs : Legal s) {i : Instr} (hwf : i.wellFormed s.params.nSwt = true) (f : Fault) :
    exec i s ≠ .fault f := by
  cases hl : i.isLabel with
  | false =>
    cases hfg : s.fg with
    | idle =>
      obtain ⟨t, ht⟩ := exec_command_of_legal hs hfg hl hwf
      simp [ht]
    | busy v n rd => simp [(oneCommandInFlightAtMost s v n rd hfg).1 i hl hwf]
  | true =>
    cases i with
    | tclk => simp [exec, execTclk_eq]
    | scan =>
      cases he : scanEligible s with
      | true => simp [exec_scan_of_eligible he (Nat.lt_succ_of_le hs.cursor)]
      | false => simp [exec, execScan, eligible, he]
    | blank =>
      simp only [exec, execBlank]
      split <;> simp
    | swtTick =>
      simp only [exec, execSwtTick]
      split <;> simp
    | _ => cases hl

theorem hostMicro_ne_fault {s : State} (hs : Legal s) (f : Fault) : hostMicro s ≠ .fault f := by
  cases hfg : s.fg with
  | idle => simp [hostMicro, hfg]
  | busy w n rd =>
    obtain ⟨i, m, hi, hm, hrd⟩ := fgLegal_busy_iff.mp (hfg ▸ hs.fg)
    have hwf := wellFormed_of_decode (decodeCommand_some hi).1
    obtain ⟨q, hq⟩ := runMicro_of_legal hs (fits_of_mem hs.params hwf (List.mem_of_getElem? hm)) hrd false
    simp only [hostMicro, hfg, hi, hm, hq]
    split <;> simp

theorem step_ne_fault {s : State} (hs : Legal s) (f : Fault) : step s ≠ .fault f := by
  cases htrace : s.trace with
  | nil => simp [step, htrace]
  | cons turn ts =>
    rw [step_of_trace htrace]
    have hs' : Legal { s with trace := ts } := hs.withTrace ts
    generalize ({ s with trace := ts } : State) = s' at hs'
    cases turn with
    | word w =>
      simp only [runTurn, runWord]
      split
      · rename_i i hi
        exact exec_ne_fault hs' (wellFormed_of_decode hi) f
      · simp
    | present w =>
      simp only [runTurn, presentCommand]
      split
      · simp
      · split <;> simp
    | micro => exact hostMicro_ne_fault hs' f
    | service =>
      simp only [runTurn, runService_eq]
      split
      · rename_i e he
        exact exec_ne_fault hs' (by cases e <;> rfl) f
      · simp
    | lowRate => simp [runTurn]

/-- Settles O15: no step from a legal state faults, and every step leaves a legal state. -/
theorem noFaultFromALegalState : Obligations.NoFaultFromALegalState := by
  intro s hs k f
  induction k generalizing s with
  | zero => simp [Host.Core.run]
  | succ k ih =>
    intro hrun
    cases hstep : step s with
    | next t => exact ih t (step_legal hs hstep) ((run_succ hstep k).symm.trans hrun)
    | fault g => exact step_ne_fault hs g hstep
    | refused r =>
      have hstop : Sys2Proof.core.step s = .refused r := hstep
      simp [Host.Core.run, hstop] at hrun

/-! ## Everything legal completes -/

theorem microsOf_length_le (p : Params) (i : Instr) : (microsOf p i).length ≤ 25 := by
  cases i <;> simp [microsOf, initMicros, drvonMicros, drvoffMicros, brightMicros, clearMicros, numMicros, numclrMicros,
    powerMicros, pctMicros, dropMicros, fillMicros, swtSetMicros, swtIstMicros, swtActMicros, zeroRange, copyRow, Area.size]

/-- A service taken from a legal state leaves one. -/
theorem exec_label_legal {i : Instr} {s t : State} (hs : Legal s) (hd : ∀ n, decode n (encode i) = some i)
    (h : exec i s = .next t) : Legal t := by
  have hstep : step (running s (entry i :: s.trace)) = .next t := (step_label hd rfl).trans h
  exact step_legal (hs.withTrace _) hstep

theorem displayQuiet_iff {s : State} : displayQuiet s = true ↔ blankEligible s = false ∧ scanEligible s = false := by
  simp [displayQuiet]

/-- `SWT_TICK` is taken when no display event is eligible; `execSwtTick_next` is the converse (R145, R164). -/
theorem exec_swtTick_of_quiet {s : State} (h : displayQuiet s = true) :
    exec .swtTick s = .next { s with swtPend := false, swt := s.swt.map fun u => { u with count := decSat u.count } } :=
  if_pos h

/-- An eligible service is taken, the cursor in range (R161). -/
theorem exec_eventInstr_of_eligible {s : State} {e : Event} (hc : s.cursor.toNat < 25) (h : eligible s e = true) :
    ∃ t, exec (eventInstr e) s = .next t := by
  cases e with
  | blank => exact ⟨_, exec_blank_of_eligible h⟩
  | scan => exact ⟨_, exec_scan_of_eligible h hc⟩
  | swtTick => exact ⟨_, exec_swtTick_of_quiet (Bool.and_eq_true_iff.mp h).2⟩

/-- Settles O16: a word that is not reserved is a command's, which completes from a legal state; an eligible service is taken. -/
theorem commandsAndServicesAreTotal : Obligations.CommandsAndServicesAreTotal := by
  refine ⟨fun s w rest hs hfg htrace hres => ?_, fun s e hs he => ?_⟩
  · obtain ⟨i, hi⟩ := exists_decodeCommand_of_not_reserved hres
    obtain ⟨hdec, hl⟩ := decodeCommand_some hi
    have hwf := wellFormed_of_decode hdec
    have hstep := (stepRunsTheDecodedInstruction s w rest htrace).1 i hdec
    obtain ⟨t, ht⟩ := exec_command_of_legal (hs.withTrace rest) hfg hl hwf
    refine ⟨t, i, hdec, microsOf_length_le _ i, hstep.trans ht, step_legal hs (hstep.trans ht), ?_⟩
    rw [exec_command (s := { s with trace := rest }) hl hwf] at ht
    obtain ⟨-, q, hq, rfl⟩ := runCommand_next ht
    obtain ⟨-, -, -, -, -, hq_trace⟩ := runMicros_frame hq
    exact ⟨hq_trace, rfl, rfl⟩
  · obtain ⟨t, ht⟩ := exec_eventInstr_of_eligible (Nat.lt_succ_of_le hs.cursor) he
    exact ⟨t, ht, exec_label_legal hs (fun n => by cases e <;> rfl) ht⟩

end Sys2Proof.Machine
end

section
/-! The display buffer micro-step by micro-step (R42, R44, R46, R47), and commands run whole and in pieces. -/

namespace Sys2Proof.Machine

open Sys2Proof.Claims

/-! ## One slot write per micro-step -/

/-- The slot a micro-step writes and the word it writes there, if it writes one (R42, R44). -/
def slotWrite (rom : Rom) : Micro → Option (Nat × Slot)
  | .zero i => some (i, Slot.zero)
  | .copy a r k => (romRead rom a r k).map fun w => (a.base + k, w)
  | .init | .bright _ | .drvOn | .drvOff | .writeCount _ _ | .writeActive _ _ | .readCount _ | .testExpiry _ => none

/-- The buffer after a slot write, if there is one. -/
def putSlot (b : Vector Slot 25) : Option (Nat × Slot) → Vector Slot 25
  | some (i, w) => b.setIfInBounds i w
  | none => b

/-- The buffer after the micro-steps `ms`. -/
def bufAfter (rom : Rom) (ms : List Micro) (b : Vector Slot 25) : Vector Slot 25 :=
  ms.foldl (fun b m => putSlot b (slotWrite rom m)) b

theorem bufAfter_cons (rom : Rom) (m : Micro) (ms : List Micro) (b : Vector Slot 25) :
    bufAfter rom (m :: ms) b = bufAfter rom ms (putSlot b (slotWrite rom m)) := rfl

theorem bufAfter_append (rom : Rom) (ms ns : List Micro) (b : Vector Slot 25) :
    bufAfter rom (ms ++ ns) b = bufAfter rom ns (bufAfter rom ms b) := List.foldl_append

theorem getElem_putSlot (b : Vector Slot 25) (i : Nat) (w : Slot) (j : Nat) (hj : j < 25) :
    (putSlot b (some (i, w)))[j] = if j = i then w else b[j] := by
  simp only [putSlot, Vector.getElem_setIfInBounds, eq_comm]

/-- A micro-step of a command without slots of its own keeps the buffer. -/
theorem runMicro_keeps_buf {m : Micro} {p q : Progress} (h : runMicro m p = .ok q) {i : Instr}
    (hown : ∀ j, ownSlot i j = false) (hm : m.issuedBy i) : q.state.buf = p.state.buf := by
  have heff : MicroEffects i p.state q.state := .single (runMicro_effect hm h)
  refine Vector.ext fun j hj => (heff.buf hj).resolve_right ?_
  simp [hown]

theorem runMicro_copy_ok {a : Area} {r k : Nat} {p q : Progress} (h : runMicro (.copy a r k) p = .ok q) :
    ∃ w, romRead p.state.params.rom a r k = some w ∧ q = ⟨writeSlot p.state (a.base + k) w, p.read, false⟩ := by
  simp only [runMicro] at h
  split at h
  · rename_i w hw
    cases h
    exact ⟨w, hw, rfl⟩
  · cases h

/-- Whatever a micro-step does, it leaves the buffer with its one slot write. -/
theorem runMicro_buf {m : Micro} {p q : Progress} (h : runMicro m p = .ok q) :
    q.state.buf = putSlot p.state.buf (slotWrite p.state.params.rom m) := by
  cases m with
  | zero i => cases h; rfl
  | copy a r k =>
    obtain ⟨w, hw, rfl⟩ := runMicro_copy_ok h
    simp only [slotWrite, hw, Option.map_some]
    rfl
  | init => exact runMicro_keeps_buf h (i := .init) (fun _ => rfl) rfl
  | bright pct => exact runMicro_keeps_buf h (i := .bright pct) (fun _ => rfl) rfl
  | drvOn => exact runMicro_keeps_buf h (i := .drvon) (fun _ => rfl) rfl
  | drvOff => exact runMicro_keeps_buf h (i := .drvoff) (fun _ => rfl) rfl
  | writeCount g x => exact runMicro_keeps_buf h (i := .swtSet g x) (fun _ => rfl) rfl
  | writeActive g b => exact runMicro_keeps_buf h (i := .swtSet g 0) (fun _ => rfl) (.inl ⟨0, rfl⟩)
  | readCount g | testExpiry g => exact runMicro_keeps_buf h (i := .swtIst g) (fun _ => rfl) rfl

/-- Settles O10: the turn is the micro-step `FG` names, whose slot write `runMicro_buf` gives. -/
theorem microStepWritesOneWholeSlot : Obligations.MicroStepWritesOneWholeSlot := by
  intro s t rest htrace h
  rw [step_of_trace htrace] at h
  obtain ⟨hidle, rfl⟩ | ⟨w, n, rd, c, m, q, hfg, hc, hm, hrun, ht⟩ := hostMicro_next h
  · have hidle' : s.fg = .idle := hidle
    exact ⟨fun _ => rfl, fun w n rd hbusy => by simp [hidle'] at hbusy⟩
  · have hfg' : s.fg = .busy w n rd := hfg
    refine ⟨fun hidle => by simp [hidle] at hfg', fun w' n' rd' hbusy => ?_⟩
    obtain ⟨rfl, rfl, rfl⟩ : w = w' ∧ n = n' ∧ rd = rd' := by simpa [hfg'] using hbusy
    have hbuf : t.buf = putSlot s.buf (slotWrite s.params.rom m) := by
      obtain ⟨-, rfl⟩ | ⟨-, rfl⟩ := ht <;> exact runMicro_buf hrun
    refine ⟨c, m, hc, hm, ?_, ?_, ?_⟩
    · rintro i rfl j hj
      simp only [hbuf, slotWrite, getElem_putSlot]
    · rintro a r k rfl
      obtain ⟨v, hv, -⟩ := runMicro_copy_ok hrun
      have hv' : romRead s.params.rom a r k = some v := hv
      refine ⟨v, hv', fun j hj => ?_⟩
      simp only [hbuf, slotWrite, hv', Option.map_some, getElem_putSlot]
    · intro hzero hcopy
      cases m with
      | zero i => exact absurd rfl (hzero i)
      | copy a r k => exact absurd rfl (hcopy a r k)
      | _ => exact hbuf

/-! ## The micro-steps of a content command -/

theorem mem_copyRow {a : Area} {r : Nat} {m : Micro} (hm : m ∈ copyRow a r) : ∃ k, k < a.size ∧ m = .copy a r k := by
  obtain ⟨k, hk, rfl⟩ := List.mem_map.mp hm
  exact ⟨k, List.mem_range.mp hk, rfl⟩

/-- A content command zeroes slots, or copies one row into each area it shows. -/
theorem content_micros (p : Params) {i : Instr} (hi : i.isContent = true) :
    (∀ m ∈ microsOf p i, ∃ j, m = .zero j)
      ∨ ∃ row : Area → Nat, ∀ m ∈ microsOf p i, ∃ a k, k < a.size ∧ m = .copy a (row a) k := by
  cases i with
  | clear | numclr =>
    refine .inl fun m hm => ?_
    obtain ⟨j, -, rfl⟩ := List.mem_map.mp hm
    exact ⟨_, rfl⟩
  | num v =>
    refine .inr ⟨fun a => if a = .tens then (numRows v).1 else (numRows v).2, fun m hm => ?_⟩
    obtain hm | hm := List.mem_append.mp hm
    · exact ⟨.tens, mem_copyRow hm⟩
    · exact ⟨.units, mem_copyRow hm⟩
  | power | pct | drop | fill => exact .inr ⟨fun _ => _, fun m hm => ⟨_, mem_copyRow hm⟩⟩
  | _ => cases hi

/-- Each slot is written by one micro-step of a content command at most. -/
theorem content_writes_once {p : Params} {i : Instr} (hi : i.isContent = true) {rom : Rom} {m m' : Micro}
    (hm : m ∈ microsOf p i) (hm' : m' ∈ microsOf p i) {j : Nat} {w w' : Slot} (hw : slotWrite rom m = some (j, w))
    (hw' : slotWrite rom m' = some (j, w')) : m = m' := by
  obtain hzero | ⟨row, hcopy⟩ := content_micros p hi
  · obtain ⟨k, rfl⟩ := hzero m hm
    obtain ⟨k', rfl⟩ := hzero m' hm'
    cases hw
    cases hw'
    rfl
  · obtain ⟨a, k, hk, rfl⟩ := hcopy m hm
    obtain ⟨a', k', hk', rfl⟩ := hcopy m' hm'
    obtain ⟨_, -, ⟨⟩⟩ := Option.map_eq_some_iff.mp hw
    obtain ⟨_, -, heq⟩ := Option.map_eq_some_iff.mp hw'
    have hslot : a'.base + k' = a.base + k := congrArg Prod.fst heq
    obtain rfl : a' = a := by rw [← areaOf_base_add a hk, ← hslot, areaOf_base_add a' hk']
    obtain rfl : k' = k := by omega
    rfl

/-! ## The buffer after slot writes -/

section
variable {rom : Rom} {ms : List Micro}

theorem getElem_bufAfter_of_unwritten {j : Nat} (h : ∀ m ∈ ms, ∀ w, slotWrite rom m ≠ some (j, w)) (b : Vector Slot 25)
    (hj : j < 25) : (bufAfter rom ms b)[j] = b[j] := by
  induction ms generalizing b with
  | nil => rfl
  | cons m ms ih =>
    rw [List.forall_mem_cons] at h
    rw [bufAfter_cons, ih h.2]
    cases hw : slotWrite rom m with
    | none => rfl
    | some x =>
      obtain ⟨k, w⟩ := x
      have hne : j ≠ k := by
        rintro rfl
        exact h.1 w hw
      rw [getElem_putSlot, if_neg hne]

/-- Micro-steps that write the same slot are the same micro-step. -/
def WritesOnce (rom : Rom) (ms : List Micro) : Prop :=
  ∀ m ∈ ms, ∀ m' ∈ ms, ∀ j w w', slotWrite rom m = some (j, w) → slotWrite rom m' = some (j, w') → m = m'

theorem getElem_bufAfter_of_written (honce : WritesOnce rom ms) {m : Micro} (hm : m ∈ ms) {j : Nat} {w : Slot}
    (hw : slotWrite rom m = some (j, w)) (b : Vector Slot 25) (hj : j < 25) : (bufAfter rom ms b)[j] = w := by
  induction ms generalizing b with
  | nil => cases hm
  | cons m₀ ms ih =>
    rw [bufAfter_cons]
    by_cases hlater : m ∈ ms
    · exact ih (fun x hx y hy => honce x (.tail _ hx) y (.tail _ hy)) hlater _
    · obtain rfl : m = m₀ := (List.mem_cons.mp hm).resolve_right hlater
      rw [getElem_bufAfter_of_unwritten, hw, getElem_putSlot, if_pos rfl]
      intro x hx v hv
      exact hlater (honce m hm x (.tail _ hx) j w v hw hv ▸ hx)

/-- A slot is as before or as the whole list leaves it, however many of the micro-steps are taken (R47). -/
theorem getElem_bufAfter_take (honce : WritesOnce rom ms) (n : Nat) (b : Vector Slot 25) {j : Nat} (hj : j < 25) :
    (bufAfter rom (ms.take n) b)[j] = b[j] ∨ (bufAfter rom (ms.take n) b)[j] = (bufAfter rom ms b)[j] := by
  by_cases hwritten : ∃ m ∈ ms.take n, ∃ w, slotWrite rom m = some (j, w)
  · obtain ⟨m, hm, w, hw⟩ := hwritten
    right
    rw [getElem_bufAfter_of_written honce (List.mem_of_mem_take hm) hw b hj]
    exact getElem_bufAfter_of_written
      (fun x hx y hy => honce x (List.mem_of_mem_take hx) y (List.mem_of_mem_take hy)) hm hw b hj
  · push Not at hwritten
    exact .inl (getElem_bufAfter_of_unwritten hwritten b hj)

theorem bufAfter_bufAfter (honce : WritesOnce rom ms) (b : Vector Slot 25) :
    bufAfter rom ms (bufAfter rom ms b) = bufAfter rom ms b := by
  refine Vector.ext fun j hj => ?_
  by_cases hwritten : ∃ m ∈ ms, ∃ w, slotWrite rom m = some (j, w)
  · obtain ⟨m, hm, w, hw⟩ := hwritten
    rw [getElem_bufAfter_of_written honce hm hw, getElem_bufAfter_of_written honce hm hw]
  · push Not at hwritten
    exact getElem_bufAfter_of_unwritten hwritten _ hj

/-! ## Content commands run whole -/

theorem runMicro_of_slotWrite {m : Micro} {s : State} {j : Nat} {w : Slot} (h : slotWrite s.params.rom m = some (j, w))
    (rd : Option Ticks) (r : Bool) : runMicro m ⟨s, rd, r⟩ = .ok ⟨writeSlot s j w, rd, false⟩ := by
  cases m with
  | zero i => cases h; rfl
  | copy a r k =>
    obtain ⟨v, hv, ⟨⟩⟩ := Option.map_eq_some_iff.mp h
    simp only [runMicro, hv]
  | _ => cases h

/-- Slot writes one after another leave the buffer, and nothing else, changed (R80). -/
theorem runMicros_of_slotWrites {s : State} (h : ∀ m ∈ ms, (slotWrite s.params.rom m).isSome = true) (rd : Option Ticks) :
    runMicros ms ⟨s, rd, false⟩ = .ok ⟨{ s with buf := bufAfter s.params.rom ms s.buf }, rd, false⟩ := by
  induction ms generalizing s with
  | nil => rfl
  | cons m ms ih =>
    obtain ⟨hfirst, hrest⟩ := List.forall_mem_cons.mp h
    obtain ⟨⟨j, w⟩, hw⟩ := Option.isSome_iff_exists.mp hfirst
    rw [runMicros_cons_ok (runMicro_of_slotWrite hw rd false), ih (s := writeSlot s j w) hrest, bufAfter_cons, hw]
    rfl

/-- Only a missing ROM entry keeps a micro-step of a content command from being taken. -/
theorem slotWrites_of_runMicros (hms : ∀ m ∈ ms, (∃ j, m = .zero j) ∨ ∃ a r k, m = .copy a r k) {p q : Progress}
    (h : runMicros ms p = .ok q) : ∀ m ∈ ms, (slotWrite p.state.params.rom m).isSome = true := by
  induction ms generalizing p with
  | nil => simp
  | cons m ms ih =>
    obtain ⟨hfirst, hrest⟩ := List.forall_mem_cons.mp hms
    simp only [runMicros] at h
    split at h
    · rename_i p' hp
      have hlater := ih hrest h
      rw [(runMicro_frame hp).1] at hlater
      refine List.forall_mem_cons.mpr ⟨?_, hlater⟩
      obtain ⟨j, rfl⟩ | ⟨a, r, k, rfl⟩ := hfirst
      · rfl
      · obtain ⟨w, hw, -⟩ := runMicro_copy_ok hp
        simp [slotWrite, hw]
    · cases h

end

theorem isLabel_of_isContent {i : Instr} (hi : i.isContent = true) : i.isLabel = false := by
  cases i <;> simp_all [Instr.isContent, Instr.isLabel]

theorem writesOnce_of_content (p : Params) {i : Instr} (hi : i.isContent = true) (rom : Rom) :
    WritesOnce rom (microsOf p i) :=
  fun _ hm _ hm' _ _ _ => content_writes_once hi hm hm'

/-- The next state of a content command (R80, R89). -/
def contentResult (i : Instr) (s : State) : State :=
  { s with buf := bufAfter s.params.rom (microsOf s.params i) s.buf, resp := some false }

theorem exec_content {i : Instr} (hi : i.isContent = true) (s : State) :
    exec i s = runCommand (microsOf s.params i) s :=
  exec_command (isLabel_of_isContent hi) (by cases i <;> simp_all [Instr.isContent, Instr.wellFormed])

theorem exec_content_of_slotWrites {i : Instr} (hi : i.isContent = true) {s : State} (hfg : s.fg = .idle)
    (hw : ∀ m ∈ microsOf s.params i, (slotWrite s.params.rom m).isSome = true) :
    exec i s = .next (contentResult i s) :=
  (exec_content hi s).trans (runCommand_buf hfg (runMicros_of_slotWrites hw none))

/-- A content command that answers a next state found every ROM entry it copies. -/
theorem exec_content_next {i : Instr} (hi : i.isContent = true) {s t : State} (h : exec i s = .next t) :
    s.fg = .idle ∧ (∀ m ∈ microsOf s.params i, (slotWrite s.params.rom m).isSome = true) ∧ t = contentResult i s := by
  have hcommand := (exec_content hi s).symm.trans h
  obtain ⟨hfg, q, hq, -⟩ := runCommand_next hcommand
  have hms : ∀ m ∈ microsOf s.params i, (∃ j, m = .zero j) ∨ ∃ a r k, m = .copy a r k := by
    intro m hm
    obtain hzero | ⟨row, hcopy⟩ := content_micros s.params hi
    · exact .inl (hzero m hm)
    · obtain ⟨a, k, -, rfl⟩ := hcopy m hm
      exact .inr ⟨a, row a, k, rfl⟩
  have hw := slotWrites_of_runMicros hms hq
  exact ⟨hfg, hw, Host.Outcome.next.inj (h.symm.trans (exec_content_of_slotWrites hi hfg hw))⟩

/-- Settles O26: the new state is `contentResult`. -/
theorem contentCommandsTouchTheBufferOnly : Obligations.ContentCommandsTouchTheBufferOnly := by
  intro s t i hi h
  obtain ⟨-, -, rfl⟩ := exec_content_next hi h
  rfl

/-- Settles O25: the second issue of a content command writes the same words to the same slots, that of `BRIGHT` and `DRVOFF` the
same constants. -/
theorem commandsAreIdempotent : Obligations.CommandsAreIdempotent := by
  rintro s t i (hi | rfl | ⟨pct, rfl⟩) h
  · obtain ⟨hfg, hw, rfl⟩ := exec_content_next hi h
    have hagain : contentResult i (contentResult i s) = contentResult i s :=
      congrArg (fun b => { s with buf := b, resp := some false }) (bufAfter_bufAfter (writesOnce_of_content s.params hi _) s.buf)
    rw [exec_content_of_slotWrites hi (s := contentResult i s) hfg hw, hagain]
  · have hfg := (runCommand_next (ms := drvoffMicros) h).1
    obtain rfl := Host.Outcome.next.inj ((exec_drvoff_of_idle hfg).symm.trans h)
    exact exec_drvoff_of_idle hfg
  · have hfg := (runCommand_next (ms := brightMicros pct) h).1
    obtain rfl := Host.Outcome.next.inj ((exec_bright_of_idle hfg pct).symm.trans h)
    exact exec_bright_of_idle hfg pct

/-- Settles O24: the row is the level modulo the row count. -/
theorem levelsWrapModuloTheRowCount : Obligations.LevelsWrapModuloTheRowCount := by
  intro s l m k
  have hrow {rows : Nat} (h : m.toNat = l.toNat + k * rows) : levelRow m rows = levelRow l rows := by
    rw [levelRow, h, Nat.add_mul_mod_self_right, levelRow]
  refine ⟨fun h => ?_, fun h => ?_⟩
  · simp only [exec, execFill, fillMicros, hrow h]
  · simp only [exec, execDrop, dropMicros, hrow h]

end Sys2Proof.Machine
end

section
/-! A command micro-step by micro-step: with no event between, and with hardware steps interleaved (R44, R46, R47). -/

namespace Sys2Proof.Machine

open Sys2Proof.Claims

/-! ## No event between -/

/-- What a whole command answers, from what its micro-steps did: the port and the schedule as given. -/
def commandOutcome (rest : List Turn) : Except Fault Progress → Host.Outcome State Fault Refusal
  | .ok p => .next (withPort p.state .idle (some p.ret) rest)
  | .error f => .fault f

theorem step_present {s : State} (hfg : s.fg = .idle) {w : CmdWord} {i : Instr}
    (hi : decodeCommand s.params.nSwt w = some i) (ts : List Turn) :
    step (running s (.present w :: ts)) = .next (withPort s (.busy w 0 none) none ts) := by
  simp only [step, running, runTurn, presentCommand, hfg, hi]
  rfl

theorem step_micro {s : State} {rest : List Turn} {w : CmdWord} {i : Instr} {n : Nat} {rd : Option Ticks} {m : Micro}
    {r : Option Bool} (hi : decodeCommand s.params.nSwt w = some i) (hm : (microsOf s.params i)[n]? = some m) :
    step (withPort s (.busy w n rd) r (.micro :: rest))
      = match runMicro m ⟨s, rd, false⟩ with
        | .error f => .fault f
        | .ok p =>
          if n + 1 = (microsOf s.params i).length then .next (withPort p.state .idle (some p.ret) rest)
          else .next (withPort p.state (.busy w (n + 1) p.read) r rest) := by
  have hstep : step (withPort s (.busy w n rd) r (.micro :: rest)) = hostMicro (withPort s (.busy w n rd) r rest) := rfl
  rw [hstep, hostMicro]
  simp only [withPort_fg, withPort_params, hi, hm, runMicro_withPort]
  cases runMicro m ⟨s, rd, false⟩ with
  | error f => rfl
  | ok p => rfl

theorem run_succ_fault {s : State} {f : Fault} (h : step s = .fault f) (k : Nat) :
    Sys2Proof.core.run (k + 1) s = .fault f := by
  have hstep : Sys2Proof.core.step s = .fault f := h
  simp only [Host.Core.run, hstep]

/-- The remaining micro-steps of a command in flight, with no event between, end as the whole command does. -/
theorem run_micros {w : CmdWord} {i : Instr} {p : Params} (hi : decodeCommand p.nSwt w = some i) (rest : List Turn)
    {m : Micro} {ms : List Micro} {n : Nat} (hms : (microsOf p i).drop n = m :: ms) {s : State} (hp : s.params = p)
    (rd : Option Ticks) (b : Bool) :
    Sys2Proof.core.run (ms.length + 1)
        (withPort s (.busy w n rd) none (List.replicate (ms.length + 1) .micro ++ rest))
      = commandOutcome rest (runMicros (m :: ms) ⟨s, rd, b⟩) := by
  subst hp
  have hm : (microsOf s.params i)[n]? = some m := by
    rw [← Nat.add_zero n, ← List.getElem?_drop, hms]
    rfl
  have hlen : (microsOf s.params i).length = n + (ms.length + 1) := by
    have hdrop := congrArg List.length hms
    simp only [List.length_drop, List.length_cons] at hdrop
    omega
  have hstep := step_micro (rest := List.replicate ms.length .micro ++ rest) (rd := rd) (r := none) hi hm
  rw [List.replicate_succ, List.cons_append, runMicros, runMicro_ret m s rd b false]
  cases hrun : runMicro m ⟨s, rd, false⟩ with
  | error f =>
    simp only [hrun] at hstep
    exact run_succ_fault hstep _
  | ok q =>
    have hq : q.state.params = s.params := (runMicro_frame hrun).1
    simp only [hrun, hlen] at hstep
    cases ms with
    | nil =>
      exact (run_succ (hstep.trans (if_pos rfl)) 0).trans (run_zero _)
    | cons m' ms =>
      have hms' : (microsOf s.params i).drop (n + 1) = m' :: ms := by
        rw [← List.drop_drop, hms]
        rfl
      rw [if_neg (by simp)] at hstep
      rw [run_succ hstep]
      exact run_micros hi rest hms' hq q.read q.ret
termination_by ms.length

/-- Settles O9: presenting the word puts the command in flight at its first micro-step, and `run_micros` takes it from there. -/
theorem microStepsInSequenceAreTheCommand : Obligations.MicroStepsInSequenceAreTheCommand := by
  intro s w i rest hfg hi
  obtain ⟨hdec, hl⟩ := decodeCommand_some hi
  obtain ⟨m, ms, hms⟩ := List.exists_cons_of_length_pos (microsOf_length_pos s.params hl)
  have hwhole : exec i (running s rest) = commandOutcome rest (runMicros (m :: ms) ⟨s, none, false⟩) := by
    have hport : running s rest = withPort s .idle s.resp rest := by
      rw [withPort, ← hfg]
      rfl
    rw [exec_command (s := running s rest) hl (wellFormed_of_decode hdec), hport, runCommand, withPort_fg, withPort_params,
      hms, runMicros_withPort]
    cases runMicros (m :: ms) ⟨s, none, false⟩ <;> rfl
  simp only [hms, List.length_cons, hwhole]
  rw [List.cons_append, run_succ (step_present hfg hi _)]
  exact run_micros hi rest (n := 0) hms rfl none false

/-! ## Hardware steps in between -/

/-- `v` is `s` after the command `i`, presented as `w`, has taken `n` of its micro-steps, with hardware steps in between. -/
structure InFlight (s : State) (w : CmdWord) (i : Instr) (n : Nat) (v : State) : Prop where
  params : v.params = s.params
  buf : v.buf = bufAfter s.params.rom ((microsOf s.params i).take n) s.buf
  busy : n < (microsOf s.params i).length → ∃ rd, v.fg = .busy w n rd
  idle : (microsOf s.params i).length ≤ n → v.fg = .idle

section
variable {s v v' : State} {w : CmdWord} {i : Instr} {n : Nat}

/-- A step that leaves the parameters, the buffer and the command in flight is no progress of the command. -/
theorem InFlight.of_frame (h : InFlight s w i n v) (hparams : v'.params = v.params) (hbuf : v'.buf = v.buf)
    (hfg : v'.fg = v.fg) : InFlight s w i n v' :=
  ⟨hparams.trans h.params, hbuf.trans h.buf, hfg ▸ h.busy, hfg ▸ h.idle⟩

theorem InFlight.label (h : InFlight s w i n v) {j : Instr} (hj : j.isLabel = true) (hexec : exec j v = .next v') :
    InFlight s w i n v' := by
  obtain ⟨hbuf, -, -, -, -, hfg, -, hparams, -⟩ := eventsNeverTouchTheHostsState v v' j hj hexec
  exact h.of_frame hparams hbuf hfg

theorem InFlight.micro (hi : decodeCommand s.params.nSwt w = some i) (h : InFlight s w i n v)
    (hmicro : hostMicro v = .next v') : InFlight s w i (n + 1) v' := by
  obtain ⟨hidle, rfl⟩ | ⟨w', n', rd, c, m, q, hfg, hc, hm, hrun, ht⟩ := hostMicro_next hmicro
  · have hlen : (microsOf s.params i).length ≤ n := by
      by_contra hlt
      obtain ⟨rd, hbusy⟩ := h.busy (Nat.lt_of_not_le hlt)
      simp [hidle] at hbusy
    refine ⟨h.params, ?_, fun hlt => absurd hlen (by omega), fun _ => hidle⟩
    rw [h.buf, List.take_of_length_le hlen, List.take_of_length_le (hlen.trans n.le_succ)]
  · have hlt : n < (microsOf s.params i).length := by
      by_contra hlen
      simp [h.idle (Nat.le_of_not_lt hlen)] at hfg
    obtain ⟨rd', hbusy⟩ := h.busy hlt
    obtain ⟨rfl, rfl, rfl⟩ : w' = w ∧ n' = n ∧ rd = rd' := by simpa [hfg] using hbusy
    rw [h.params] at hc hm ht
    obtain rfl := Option.some.inj (hc.symm.trans hi)
    have hq : q.state.params = s.params := (runMicro_frame hrun).1.trans h.params
    have hbuf : q.state.buf = bufAfter s.params.rom ((microsOf s.params c).take (n' + 1)) s.buf := by
      rw [runMicro_buf hrun, List.take_add_one, hm, bufAfter_append, ← h.buf, h.params]
      rfl
    obtain ⟨hlast, rfl⟩ | ⟨hmore, rfl⟩ := ht
    · exact ⟨hq, hbuf, fun hlt' => absurd hlast (by omega), fun _ => rfl⟩
    · exact ⟨hq, hbuf, fun _ => ⟨_, rfl⟩, fun hle => absurd hle (by omega)⟩

/-- One step of the interleaving: a micro-step is progress, every other entry is none (R46). -/
theorem InFlight.step (hi : decodeCommand s.params.nSwt w = some i) (h : InFlight s w i n v) {x : Turn} {ts : List Turn}
    (htrace : v.trace = x :: ts) (hx : Interleaved s.params.nSwt x) (hstep : step v = .next v') :
    InFlight s w i (n + if x = .micro then 1 else 0) v' := by
  rw [step_of_trace htrace] at hstep
  have h' : InFlight s w i n { v with trace := ts } := h.of_frame rfl rfl rfl
  obtain rfl | rfl | rfl | ⟨u, j, rfl, hj, hl⟩ := hx
  · exact h'.micro hi hstep
  · have hservice : runService { v with trace := ts } = .next v' := hstep
    rw [runService_eq] at hservice
    split at hservice
    · rename_i e he
      exact h'.label (eventInstr_isLabel e) hservice
    · cases hservice
      exact h'
  · cases hstep
    exact h'.of_frame rfl rfl rfl
  · have hparams : v.params = s.params := h.params
    have hexec : exec j { v with trace := ts } = .next v' := by
      simpa only [runTurn, runWord, hparams, hj] using hstep
    exact h'.label hl hexec

theorem InFlight.run (hi : decodeCommand s.params.nSwt w = some i) {ts : List Turn}
    (hts : ∀ x ∈ ts, Interleaved s.params.nSwt x) (h : InFlight s w i n v) (htrace : v.trace = ts)
    (hrun : Sys2Proof.core.run ts.length v = .next v') :
    InFlight s w i (n + ts.countP fun x => x == .micro) v' := by
  induction ts generalizing n v with
  | nil => cases hrun; exact h
  | cons x ts ih =>
    obtain ⟨hx, hrest⟩ := List.forall_mem_cons.mp hts
    obtain ⟨u, hstep, hrun⟩ := run_succ_next hrun
    have htail : u.trace = ts := (step_effect hstep).trace.trans (congrArg List.tail htrace)
    have hu := ih hrest (h.step hi htrace hx hstep) htail hrun
    rw [List.countP_cons]
    convert hu using 1
    simp only [beq_iff_eq]
    omega

end

/-- Settles O11: the buffer is that of the micro-steps taken so far, in which each slot is written once at most. -/
theorem slotsAreOldOrNewDuringACommand : Obligations.SlotsAreOldOrNewDuringACommand := by
  intro s t u w i ts hfg hdec hcontent hexec hts hrun
  have hi : decodeCommand s.params.nSwt w = some i :=
    decodeCommand_eq_some_iff.mpr ⟨hdec, isLabel_of_isContent hcontent⟩
  rw [run_succ (step_present hfg hi ts)] at hrun
  have hstart : InFlight s w i 0 (withPort s (.busy w 0 none) none ts) :=
    ⟨rfl, rfl, fun _ => ⟨none, rfl⟩,
      fun hle => absurd (microsOf_length_pos s.params (isLabel_of_isContent hcontent)) (by omega)⟩
  have hend := hstart.run hi hts rfl hrun
  obtain ⟨-, -, rfl⟩ := exec_content_next hcontent hexec
  refine ⟨fun j hj => ?_, fun hall => ?_⟩
  · simp only [hend.buf]
    exact getElem_bufAfter_take (writesOnce_of_content s.params hcontent _) _ s.buf hj
  · rw [hend.buf, List.take_of_length_le (by omega)]
    rfl

end Sys2Proof.Machine
end

section
/-! Masks, segments and light (R6, R22, R35), and the glyph tables (R24 to R28). -/

namespace Sys2Proof.Machine

open Sys2Proof.Claims

/-! ## Masks -/

theorem subset_iff {a b : Mask} : subset a b = true ↔ ∀ i, a.getLsbD i = true → b.getLsbD i = true := by
  rw [subset, beq_iff_eq]
  constructor
  · intro h i ha
    have hbit := congrArg (fun m => m.getLsbD i) h
    have hi : i < 6 := BitVec.lt_of_getLsbD ha
    simpa [ha, hi] using hbit
  · intro h
    apply BitVec.eq_of_getLsbD_eq
    intro i hi
    cases ha : a.getLsbD i
    · simp [ha]
    · simp [ha, h i ha]

/-- A mask inside another with as many bits is that mask. -/
theorem eq_of_subset_of_popcount {a b : Mask} (h : subset a b = true) (hcount : popcount a = popcount b) : a = b := by
  rw [subset_iff] at h
  simp only [popcount, List.countP_eq_length_filter] at hcount
  have hsub : ((List.range 6).filter fun i => a.getLsbD i).Sublist ((List.range 6).filter fun i => b.getLsbD i) :=
    List.monotone_filter_right _ h
  have heq := hsub.eq_of_length hcount
  apply BitVec.eq_of_getLsbD_eq
  intro i hi
  have hmem : i ∈ ((List.range 6).filter fun i => a.getLsbD i) ↔ i ∈ ((List.range 6).filter fun i => b.getLsbD i) := by
    rw [heq]
  simpa only [List.mem_filter, List.mem_range, hi, true_and, ← Bool.eq_iff_iff] using hmem

/-! ## What is lit -/

theorem segWf_of_getElem? {p : Params} (hp : paramsWf p = true) {k : Nat} {w : Slot} (hk : p.rom.seg[k]? = some w) :
    segWf w = true :=
  (paramsWf_seg hp).2.1 w (List.mem_of_getElem? hk)

/-- With no line driven high no segment is lit. -/
theorem segLit_of_no_high {dir out : Mask} (h : dir &&& out = 0) {v : Slot} (hv : segWf v = true) :
    segLit dir out v = false := by
  obtain ⟨-, -, hanode⟩ := segWf_iff.mp hv
  have hhigh : subset v.anode 0 = false := by
    by_contra hsub
    have hzero : v.anode = 0 :=
      BitVec.and_allOnes.symm.trans (beq_iff_eq.mp (Bool.eq_true_of_not_eq_false hsub))
    rw [hzero] at hanode
    exact absurd hanode (by decide)
  rw [segLit, h, hhigh, Bool.false_and]

theorem mem_lit {rom : Rom} {dir out : Mask} {k : Nat} :
    k ∈ lit rom dir out ↔ k < 25 ∧ ∃ seg, rom.seg[k]? = some seg ∧ segLit dir out seg = true := by
  rw [lit, List.mem_filter, List.mem_range]
  cases rom.seg[k]? <;> simp

theorem lit_of_no_high {p : Params} (hp : paramsWf p = true) {dir out : Mask} (h : dir &&& out = 0) :
    lit p.rom dir out = [] := by
  refine List.eq_nil_iff_forall_not_mem.mpr fun k hk => ?_
  obtain ⟨-, seg, hseg, hlit⟩ := mem_lit.mp hk
  rw [segLit_of_no_high h (segWf_of_getElem? hp hseg)] at hlit
  cases hlit

/-- The port of one segment lights no other: the high line is the same, and so is the low one. -/
theorem segLit_iff_eq {v w : Slot} (hv : segWf v = true) (hw : segWf w = true) : segLit w.active w.anode v = true ↔ v = w := by
  obtain ⟨hvsub, hvactive, hvanode⟩ := segWf_iff.mp hv
  obtain ⟨hwsub, hwactive, hwanode⟩ := segWf_iff.mp hw
  have hwin : ∀ i, w.anode.getLsbD i = true → w.active.getLsbD i = true :=
    subset_iff.mp (beq_iff_eq.mpr hwsub)
  simp only [segLit, Bool.and_eq_true, subset_iff, BitVec.getLsbD_and, BitVec.getLsbD_not, Bool.not_eq_true',
    decide_eq_true_eq]
  constructor
  · rintro ⟨hhigh, hlow⟩
    have hanode : v.anode = w.anode :=
      eq_of_subset_of_popcount (subset_iff.mpr fun i hi => (hhigh i hi).2) (hvanode.trans hwanode.symm)
    have hactive : v.active = w.active := by
      refine eq_of_subset_of_popcount (subset_iff.mpr fun i hi => ?_) (hvactive.trans hwactive.symm)
      cases hi' : v.anode.getLsbD i with
      | true => exact (hhigh i hi').1
      | false => exact (hlow i ⟨hi, BitVec.lt_of_getLsbD hi, hi'⟩).1
    cases v
    cases w
    simp_all
  · rintro rfl
    exact ⟨fun i hi => ⟨hwin i hi, hi⟩, fun i hi => hi⟩

theorem lit_of_segment {p : Params} (hp : paramsWf p = true) {k : Nat} {w : Slot} (hk : p.rom.seg[k]? = some w) :
    lit p.rom w.active w.anode = [k] := by
  obtain ⟨hlen, -, hnodup⟩ := paramsWf_seg hp
  have hw : segWf w = true := segWf_of_getElem? hp hk
  have hlt : k < p.rom.seg.length := (List.getElem?_eq_some_iff.mp hk).1
  have honly : ∀ j, j ∈ lit p.rom w.active w.anode ↔ j ∈ [k] := by
    intro j
    rw [mem_lit, List.mem_singleton]
    constructor
    · rintro ⟨-, v, hv, hlit⟩
      obtain rfl := (segLit_iff_eq (segWf_of_getElem? hp hv) hw).mp hlit
      exact ((List.getElem?_inj hlt hnodup).mp (hk.trans hv.symm)).symm
    · rintro rfl
      exact ⟨hlen ▸ hlt, w, hk, (segLit_iff_eq hw hw).mpr rfl⟩
  have hdistinct : (lit p.rom w.active w.anode).Nodup := List.nodup_range.filter _
  exact List.perm_singleton.mp ((List.perm_ext_iff_of_nodup hdistinct (List.nodup_singleton k)).mpr honly)

/-! ## What the services light -/

theorem cursorSlot_eq {s : State} (hc : s.cursor.toNat < 25) : cursorSlot s = s.buf[s.cursor.toNat] := by
  rw [cursorSlot, Vector.getElem?_eq_getElem hc, Option.getD_some]

/-- Settles O39: `SCAN` is its two parts, and the first writes `DIR` alone. -/
theorem scanWritesDirBeforeOut : Obligations.ScanWritesDirBeforeOut := by
  intro s t hs h
  obtain ⟨-, hc, rfl⟩ := execScan_next h
  rw [cursorSlot_eq hc]
  refine ⟨_, rfl, rfl, rfl, rfl, rfl, rfl, fun hout => lit_of_no_high hs.params ?_⟩
  show s.buf[s.cursor.toNat].active &&& s.out = 0
  rw [hout]
  exact BitVec.and_zero

/-- Settles O40: the port after `SCAN` is the slot's pair, which lights its own segment; `ZERO` drives no line. -/
theorem scanLightsExactlyItsSegment : Obligations.ScanLightsExactlyItsSegment := by
  intro s t hs h
  obtain ⟨-, hc, rfl⟩ := execScan_next h
  rw [cursorSlot_eq hc]
  refine ⟨fun k hk => lit_of_segment hs.params hk, fun hzero => ?_⟩
  have hdir : s.buf[s.cursor.toNat].active = 0 := congrArg Slot.active hzero
  refine ⟨lit_of_no_high hs.params ?_, pins_of_dir_zero hdir⟩
  show s.buf[s.cursor.toNat].active &&& s.buf[s.cursor.toNat].anode = 0
  rw [hdir]
  exact BitVec.zero_and

/-- Settles O41: with every level low no segment is lit, and a driven line is low. -/
theorem blankLightsNothing : Obligations.BlankLightsNothing := by
  intro s t hs h
  obtain ⟨-, rfl⟩ := execBlank_next h
  refine ⟨lit_of_no_high hs.params BitVec.and_zero, fun i hi => ?_⟩
  simp [lineLevel]

end Sys2Proof.Machine
end

section
/-! The glyph tables of an image that passes the contract (R24 to R28). -/

namespace Sys2Proof.Machine

open Sys2Proof.Claims

/-! ## Reading a table -/

theorem romRead_eq_some_iff {rom : Rom} {a : Area} {r j : Nat} {w : Slot} :
    romRead rom a r j = some w ↔ ∃ cells, (romTable rom a)[r]? = some cells ∧ cells[j]? = some w := by
  rw [romRead]
  cases (romTable rom a)[r]? <;> simp

section
variable {p : Params} (hp : paramsWf p = true) {a : Area}
include hp

theorem romTable_length : (romTable p.rom a).length = areaRows p a := by
  have htable := paramsWf_table hp a
  rw [tableWf, Bool.and_eq_true, decide_eq_true_eq] at htable
  exact htable.1

theorem rowWf_of_getElem? {r : Nat} {cells : List Slot} (hr : (romTable p.rom a)[r]? = some cells) :
    cells.length = a.size ∧ (cells.filter fun w => !decide (w = Slot.zero)).Nodup := by
  have htable := paramsWf_table hp a
  rw [tableWf, Bool.and_eq_true, List.all_eq_true] at htable
  have hrow := htable.2 cells (List.mem_of_getElem? hr)
  simp only [rowWf, Bool.and_eq_true, decide_eq_true_eq] at hrow
  exact ⟨hrow.1.1, hrow.2⟩

theorem exists_romRead_iff (r j : Nat) : (∃ w, romRead p.rom a r j = some w) ↔ r < areaRows p a ∧ j < a.size := by
  constructor
  · rintro ⟨w, hw⟩
    obtain ⟨cells, hr, -⟩ := romRead_eq_some_iff.mp hw
    rw [← romTable_length hp]
    exact ⟨(List.getElem?_eq_some_iff.mp hr).1, (romRead_legal hp hw).1⟩
  · rintro ⟨hr, hj⟩
    obtain ⟨w, hw, -⟩ := romRead_of_wf hp hr hj
    exact ⟨w, hw⟩

theorem romRead_zero_or_seg {r j : Nat} {w : Slot} (hw : romRead p.rom a r j = some w) :
    w = Slot.zero ∨ ∃ k, a.base ≤ k ∧ k < a.base + a.size ∧ p.rom.seg[k]? = some w := by
  refine (romRead_legal hp hw).2.imp_right fun hmem => ?_
  obtain ⟨j, hj⟩ := List.mem_iff_getElem?.mp hmem
  have hlt : j < a.size := by
    have hlen := (List.getElem?_eq_some_iff.mp hj).1
    rw [areaSegs, List.length_take] at hlen
    omega
  rw [areaSegs_getElem? _ _ hlt] at hj
  exact ⟨a.base + j, by omega, by omega, hj⟩

/-- No segment stands twice in a row. -/
theorem romRead_inj {r j k : Nat} {w : Slot} (hj : romRead p.rom a r j = some w) (hk : romRead p.rom a r k = some w)
    (hw : w ≠ Slot.zero) : j = k := by
  obtain ⟨cells, hr, hcj⟩ := romRead_eq_some_iff.mp hj
  obtain ⟨cells', hr', hck⟩ := romRead_eq_some_iff.mp hk
  obtain rfl := Option.some.inj (hr.symm.trans hr')
  have hpair := List.pairwise_iff_getElem.mp (List.pairwise_filter.mp (rowWf_of_getElem? hp hr).2)
  obtain ⟨hjlt, hjw⟩ := List.getElem?_eq_some_iff.mp hcj
  obtain ⟨hklt, hkw⟩ := List.getElem?_eq_some_iff.mp hck
  have hne : (!decide (w = Slot.zero)) = true := by simp [hw]
  have hnotLt {x y : Nat} (hx : x < cells.length) (hy : y < cells.length) (hxw : cells[x] = w) (hyw : cells[y] = w) :
      ¬ x < y :=
    fun hlt => hpair x y hx hy hlt (hxw ▸ hne) (hyw ▸ hne) (hxw.trans hyw.symm)
  have hjk := hnotLt hjlt hklt hjw hkw
  have hkj := hnotLt hklt hjlt hkw hjw
  omega

/-! ## Blank and full rows -/

theorem blankRow_of_rowBlank {r : Nat} {cells : List Slot} (hr : (romTable p.rom a)[r]? = some cells)
    (hblank : rowBlank cells = true) : BlankRow p a r := by
  intro j hj
  rw [← (rowWf_of_getElem? hp hr).1] at hj
  rw [rowBlank, List.all_eq_true] at hblank
  have hzero : cells[j] = Slot.zero := of_decide_eq_true (hblank _ (List.getElem_mem hj))
  exact romRead_eq_some_iff.mpr ⟨cells, hr, hzero ▸ List.getElem?_eq_getElem hj⟩

theorem fullRow_of_rowAll {r : Nat} {cells : List Slot} (hr : (romTable p.rom a)[r]? = some cells)
    (hall : rowAll p.rom a cells = true) : FullRow p a r := by
  intro k hk
  have hseg : a.base + k < p.rom.seg.length := by
    rw [(paramsWf_seg hp).1]
    exact base_add_lt a hk
  have hk' := List.getElem?_eq_getElem hseg
  have hmem : p.rom.seg[a.base + k] ∈ areaSegs p.rom a :=
    List.mem_of_getElem? ((areaSegs_getElem? p.rom a hk).trans hk')
  rw [rowAll, List.all_eq_true] at hall
  obtain ⟨j, hj⟩ := List.mem_iff_getElem?.mp (List.contains_iff_mem.mp (hall _ hmem))
  exact ⟨j, _, hk', romRead_eq_some_iff.mpr ⟨cells, hr, hj⟩⟩

/-- Row 10 of a digit table is blank and row 8 full (R25). -/
theorem digitRows (ha : a = .tens ∨ a = .units) : BlankRow p a 10 ∧ FullRow p a 8 := by
  have hcontent := paramsWf_content hp
  simp only [contentWf, Bool.and_eq_true, Option.any_eq_true] at hcontent
  obtain ⟨⟨⟨⟨⟨⟨⟨⟨⟨⟨tb, htb, htblank⟩, tf, htf, htfull⟩, ub, hub, hublank⟩, uf, huf, hufull⟩, -⟩, -⟩, -⟩, -⟩, -⟩, -⟩ :=
    hcontent
  obtain rfl | rfl := ha
  · exact ⟨blankRow_of_rowBlank hp htb htblank, fullRow_of_rowAll hp htf htfull⟩
  · exact ⟨blankRow_of_rowBlank hp hub hublank, fullRow_of_rowAll hp huf hufull⟩

/-- An on/off table is `ZERO`, then its segment (R26). -/
theorem onOffRows (ha : a = .power ∨ a = .percent) : BlankRow p a 0 ∧ FullRow p a 1 := by
  obtain ⟨-, -, htable⟩ := onOff_table hp ha
  refine ⟨blankRow_of_rowBlank hp (cells := [Slot.zero]) (by rw [htable]; rfl) rfl,
    fullRow_of_rowAll hp (cells := areaSegs p.rom a) (by rw [htable]; rfl) ?_⟩
  exact List.all_eq_true.mpr fun w hw => List.contains_iff_mem.mpr hw

theorem exists_row {f : List Slot → Bool} (h : (romTable p.rom a).any f = true) :
    ∃ r cells, r < areaRows p a ∧ (romTable p.rom a)[r]? = some cells ∧ f cells = true := by
  obtain ⟨cells, hmem, hf⟩ := List.any_eq_true.mp h
  obtain ⟨r, hr⟩ := List.mem_iff_getElem?.mp hmem
  exact ⟨r, cells, romTable_length hp ▸ (List.getElem?_eq_some_iff.mp hr).1, hr, hf⟩

/-- A level table has a full and a blank row (R27). -/
theorem levelRows (ha : a = .fill ∨ a = .droplet) :
    (∃ r, r < areaRows p a ∧ FullRow p a r) ∧ ∃ r, r < areaRows p a ∧ BlankRow p a r := by
  have hrows : (romTable p.rom a).any (rowAll p.rom a) = true ∧ (romTable p.rom a).any rowBlank = true := by
    have hcontent := paramsWf_content hp
    simp only [contentWf, Bool.and_eq_true] at hcontent
    obtain ⟨⟨⟨⟨-, hfillAll⟩, hfillBlank⟩, hdropAll⟩, hdropBlank⟩ := hcontent
    obtain rfl | rfl := ha
    · exact ⟨hfillAll, hfillBlank⟩
    · exact ⟨hdropAll, hdropBlank⟩
  obtain ⟨r, cells, hr, hcells, hall⟩ := exists_row hp hrows.1
  obtain ⟨r', cells', hr', hcells', hblank⟩ := exists_row hp hrows.2
  exact ⟨⟨r, hr, fullRow_of_rowAll hp hcells hall⟩, r', hr', blankRow_of_rowBlank hp hcells' hblank⟩

end

/-- Settles O18: the contract checks every row of every table, and names the rows R25 to R27 ask for. -/
theorem glyphTablesAreWellFormed : Obligations.GlyphTablesAreWellFormed := by
  refine ⟨paramsWf_defaultParams, fun p hp => ⟨fun a => ?_, fun a ha => ?_, fun a ha => ?_, fun a ha => ?_⟩⟩
  · exact ⟨exists_romRead_iff hp, fun _ _ _ => romRead_zero_or_seg hp, fun _ _ _ _ => romRead_inj hp⟩
  · exact digitRows hp (List.mem_pair.mp ha)
  · exact onOffRows hp (List.mem_pair.mp ha)
  · exact levelRows hp (List.mem_pair.mp ha)

end Sys2Proof.Machine
end

section
/-! The servicer's choice, the refused labels, and the arithmetic of brightness and ticks (R104, R122, R145, R146, R164). -/

namespace Sys2Proof.Machine

open Sys2Proof.Claims

/-! ## Which event is next -/

theorem runService_of_nextEvent {s : State} {e : Event} (h : nextEvent s = some e) :
    runService s = exec (eventInstr e) s := by
  rw [runService_eq, h]

theorem runService_of_none {s : State} (h : nextEvent s = none) : runService s = .next s := by
  rw [runService_eq, h]

theorem displayQuiet_iff_bits {s : State} : displayQuiet s = true ↔
    ¬ (s.run = true ∧ s.cmpEn = true ∧ s.cmpPend = true) ∧ ¬ (s.run = true ∧ s.ovfEn = true ∧ s.ovfPend = true) := by
  rw [displayQuiet_iff, ← Bool.not_eq_true, ← Bool.not_eq_true, blankEligible_iff, scanEligible_iff]
  tauto

/-- Settles O8: the conditions of the three clauses select the branches of `nextEvent`. -/
theorem servicerTakesHighestPriority : Obligations.ServicerTakesHighestPriority := by
  intro s rest htrace s'
  have hstep : step s = runService s' := step_of_trace htrace
  rw [hstep]
  refine ⟨fun hblank => ?_, fun ⟨hrun, hen, hpend, hblank⟩ => ?_, fun hblank hscan => ?_⟩
  · exact runService_of_nextEvent (e := .blank) (if_pos (blankEligible_iff.mpr hblank))
  · have hscan : scanEligible s' = true := scanEligible_iff.mpr ⟨hrun, hen, hpend, hblank⟩
    have hblank' : blankEligible s' ≠ true := fun h => hblank (blankEligible_iff.mp h).2
    exact runService_of_nextEvent (e := .scan) ((if_neg hblank').trans (if_pos hscan))
  · have hquiet : displayQuiet s' = true := displayQuiet_iff_bits.mpr ⟨hblank, hscan⟩
    obtain ⟨hblank', hscan'⟩ := displayQuiet_iff.mp hquiet
    refine ⟨fun hpend => runService_of_nextEvent (e := .swtTick) ?_, fun hpend => runService_of_none ?_⟩
    · have hpend' : s'.swtPend = true := hpend
      simp [nextEvent, hblank', hscan', swtTickEligible, hquiet, hpend']
    · have hpend' : s'.swtPend = false := hpend
      simp [nextEvent, hblank', hscan', swtTickEligible, hpend']

/-! ## Labels that are not eligible -/

theorem exec_blank_refused {s : State} (h : blankEligible s ≠ true) : exec .blank s = .refused (.notEligible .blank) :=
  if_neg h

theorem exec_scan_refused {s : State} (h : scanEligible s ≠ true) : exec .scan s = .refused (.notEligible .scan) :=
  if_neg h

theorem exec_swtTick_refused {s : State} (h : displayQuiet s ≠ true) :
    exec .swtTick s = .refused (.notEligible .swtTick) :=
  if_neg h

/-- Settles O38: each premise contradicts a conjunct of R104's condition. -/
theorem servicesAreTakenOnlyWhenEligible : Obligations.ServicesAreTakenOnlyWhenEligible := by
  refine fun s => ⟨fun h => exec_blank_refused (mt blankEligible_iff.mp h), fun h => exec_scan_refused fun he => ?_,
    fun _ hen hpend => exec_scan_refused fun he => ?_⟩
  · obtain ⟨hrun, hen, hpend, -⟩ := scanEligible_iff.mp he
    exact h ⟨hrun, hen, hpend⟩
  · obtain ⟨-, -, -, hblank⟩ := scanEligible_iff.mp he
    exact hblank ⟨hen, hpend⟩

/-- Settles O49: the tick maps the saturating decrement over the bank, and is refused where a display event is eligible. -/
theorem swtTickCountsEveryTimerDown : Obligations.SwtTickCountsEveryTimerDown := by
  refine ⟨rfl, fun s hblank hscan => ?_, fun s hrun hdisplay => exec_swtTick_refused fun hquiet => ?_⟩
  · refine ⟨_, exec_swtTick_of_quiet (displayQuiet_iff_bits.mpr ⟨hblank, hscan⟩), List.length_map _, fun h t ht => ?_⟩
    exact ⟨⟨t.active, decSat t.count⟩, by rw [List.getElem?_map, ht]; rfl, rfl, decSat_toNat t.count⟩
  · obtain ⟨hblank, hscan⟩ := displayQuiet_iff_bits.mp hquiet
    obtain hbits | hbits := hdisplay
    · exact hblank ⟨hrun, hbits⟩
    · exact hscan ⟨hrun, hbits⟩

/-! ## Suspend and resume -/

/-- Settles O33: `DRVOFF` and `DRVON` write `RUN`, the port and the flags between them, and no slot. -/
theorem suspendAndResumeKeepTheDisplay : Obligations.SuspendAndResumeKeepTheDisplay :=
  fun _ hfg => ⟨_, _, exec_drvoff_of_idle hfg, exec_drvon_of_idle hfg, rfl, rfl⟩

/-! ## Brightness and ticks -/

theorem brightMap_of_ge {t p : Nat} (h : 100 ≤ p) : brightMap t p = t := if_pos h

theorem brightMap_mono (t : Nat) {p q : Nat} (h : p ≤ q) : brightMap t p ≤ brightMap t q := by
  by_cases hq : 100 ≤ q
  · rw [brightMap_of_ge hq]
    exact brightMap_le t p
  · rw [brightMap, brightMap, if_neg (by omega), if_neg hq]
    exact Nat.div_le_div_right (Nat.mul_le_mul_right t h)

/-- Settles O29: floor division is monotone below 100, and the map stays at its bound from there on. -/
theorem brightnessMapIsMonotone : Obligations.BrightnessMapIsMonotone :=
  fun t _ _ h => ⟨brightMap_mono t h, by simp [brightMap], brightMap_le t _, brightMap_of_ge⟩

theorem le_ceilDiv_mul (a : Nat) {b : Nat} (hb : 1 ≤ b) : a ≤ ceilDiv a b * b := by
  have h : a + b - 1 < (ceilDiv a b + 1) * b := (Nat.div_lt_iff_lt_mul hb).mp (Nat.lt_succ_self _)
  rw [Nat.add_mul] at h
  omega

theorem ceilDiv_le {a b m : Nat} (hb : 1 ≤ b) (h : a ≤ m * b) : ceilDiv a b ≤ m := by
  refine Nat.le_of_lt_succ ((Nat.div_lt_iff_lt_mul hb).mpr ?_)
  rw [Nat.succ_mul]
  omega

/-- Settles O52: the number of ticks is the ceiling of the quotient. -/
theorem msToTicksRoundsUp : Obligations.MsToTicksRoundsUp := by
  refine ⟨fun ms => rfl, fun ms p hp => ?_⟩
  have hticks : msToTicks ms p = some (ceilDiv ms p) := if_neg (by omega)
  refine ⟨ceilDiv ms p, hticks, le_ceilDiv_mul ms hp, fun m => ceilDiv_le hp, fun h => ⟨fun hfit => ?_, fun hover => ?_⟩⟩
  · simp only [swtSetMs, hticks]
    exact if_pos hfit
  · simp only [swtSetMs, hticks]
    exact if_neg (Nat.not_lt.mpr hover)

end Sys2Proof.Machine
end

section
/-! A timer over any ticks and polls (R147). -/

namespace Sys2Proof.Machine

open Sys2Proof.Claims

/-! ## One entry -/

/-- An entry of a well-formed instruction runs its meaning. -/
theorem step_entry {s : State} {i : Instr} {rest : List Turn} (hwf : i.wellFormed s.params.nSwt = true)
    (htrace : s.trace = entry i :: rest) : step s = exec i { s with trace := rest } :=
  (stepRunsTheDecodedInstruction s (encode i) rest htrace).1 i (decodeOfEncodeIsTheInstruction _ i hwf)

/-- The state in which ticks and polls run: a free port, no display event before the tick, a whole bank. -/
structure Polling (s : State) : Prop where
  idle : s.fg = .idle
  quiet : displayQuiet s = true
  bank : s.swt.length = s.params.nSwt

/-- What a poll leaves of the timer it reads (R142). -/
def polled (t : SwTimer) : SwTimer := if expired t.active t.count then ⟨false, 0⟩ else t

theorem polled_count (t : SwTimer) : (polled t).count = t.count := by
  rw [polled]
  split
  · rename_i hexp
    rw [timer_eq_of_expiredPending (expired_iff_timerPhase.mp hexp)]
  · rfl

theorem expired_eq_true_iff {t : SwTimer} : expired t.active t.count = true ↔ t.active = true ∧ t.count.toNat = 0 := by
  rw [expired, Bool.and_eq_true, beq_iff_eq, ← BitVec.toNat_inj]
  rfl

theorem polled_active_iff (t : SwTimer) : (polled t).active = true ↔ t.active = true ∧ 0 < t.count.toNat := by
  rw [polled]
  split
  · rename_i hexp
    obtain ⟨-, hzero⟩ := expired_eq_true_iff.mp hexp
    simp [hzero]
  · rename_i hexp
    rw [expired_eq_true_iff] at hexp
    exact ⟨fun hactive => ⟨hactive, Nat.pos_of_ne_zero fun hzero => hexp ⟨hactive, hzero⟩⟩, fun h => h.1⟩

/-- A poll, both outcomes in one: it answers whether the timer has expired. -/
theorem exec_swtIst {s : State} {g : Byte} {t : SwTimer} (hfg : s.fg = .idle) (hg : g.toNat < s.params.nSwt)
    (ht : s.swt[g.toNat]? = some t) :
    exec (.swtIst g) s
      = .next { s with swt := s.swt.set g.toNat (polled t), resp := some (expired t.active t.count) } := by
  obtain ⟨-, hexpired, hother⟩ := swtIstConsumesTheExpiry s g t hfg hg ht
  by_cases hexp : expired t.active t.count = true
  · rw [hexpired (expired_iff_timerPhase.mp hexp), polled, if_pos hexp, hexp]
  · obtain ⟨hlt, rfl⟩ := List.getElem?_eq_some_iff.mp ht
    rw [hother (mt expired_iff_timerPhase.mpr hexp), polled, if_neg hexp, List.set_getElem_self,
      Bool.eq_false_of_not_eq_true hexp]

/-- The instruction is a tick or a poll of a timer of the machine. -/
def TickOrPoll (nSwt : Nat) (x : Instr) : Prop := x = .swtTick ∨ ∃ g : Byte, x = .swtIst g ∧ g.toNat < nSwt

theorem TickOrPoll.wellFormed {n : Nat} {x : Instr} (h : TickOrPoll n x) : x.wellFormed n = true := by
  obtain rfl | ⟨g, rfl, hg⟩ := h
  · rfl
  · exact decide_eq_true hg

/-- What a tick or a poll makes of the timer `h`: a tick counts, a poll of `h` itself consumes its expiry. -/
theorem exec_tickOrPoll {s : State} (hs : Polling s) {h : Byte} {t : SwTimer} (ht : s.swt[h.toNat]? = some t)
    {x : Instr} (hx : TickOrPoll s.params.nSwt x) :
    ∃ s' t', exec x s = .next s' ∧ Polling s' ∧ s'.params = s.params ∧ s'.swt[h.toNat]? = some t'
      ∧ t'.count.toNat = t.count.toNat - ticks [x]
      ∧ (t'.active = true ↔ t.active = true ∧ (x = .swtIst h → 0 < t.count.toNat)) := by
  obtain rfl | ⟨g, rfl, hg⟩ := hx
  · refine ⟨_, ⟨t.active, decSat t.count⟩, exec_swtTick_of_quiet hs.quiet, ⟨hs.idle, hs.quiet, ?_⟩, rfl, ?_, ?_, ?_⟩
    · exact (List.length_map _).trans hs.bank
    · rw [List.getElem?_map, ht]
      rfl
    · exact decSat_toNat t.count
    · simp
  · have hlen : g.toNat < s.swt.length := hs.bank ▸ hg
    have hticks : ticks [.swtIst g] = 0 := rfl
    refine ⟨_, if g = h then polled t else t, exec_swtIst hs.idle hg (List.getElem?_eq_getElem hlen),
      ⟨hs.idle, hs.quiet, (List.length_set).trans hs.bank⟩, rfl, ?_, ?_, ?_⟩
    · by_cases hgh : g = h
      · subst hgh
        obtain ⟨_, rfl⟩ := List.getElem?_eq_some_iff.mp ht
        simp [hlen]
      · have hne : g.toNat ≠ h.toNat := fun he => hgh (BitVec.eq_of_toNat_eq he)
        rw [if_neg hgh, List.getElem?_set_ne hne, ht]
    · rw [hticks, Nat.sub_zero]
      split
      · rw [polled_count]
      · rfl
    · by_cases hgh : g = h
      · simp [hgh, polled_active_iff]
      · simp [hgh]

/-- `SWT_SET` with a period the count holds: the timer is armed with it. -/
theorem exec_swtSet_of_polling {s : State} (hs : Polling s) {h : Byte} {P : Ticks} (hh : h.toNat < s.params.nSwt)
    (hW : s.params.swtW ≤ 16) (hP : P.toNat < 2 ^ s.params.swtW) :
    ∃ s' t', exec (.swtSet h P) s = .next s' ∧ Polling s' ∧ s'.params = s.params ∧ s'.swt[h.toNat]? = some t'
      ∧ t'.active = true ∧ t'.count.toNat = P.toNat := by
  obtain ⟨-, c, hc, hset⟩ := swtSetArmsTheTimer s h P hs.idle hs.bank hh hW
  have hlen : h.toNat < s.swt.length := hs.bank ▸ hh
  refine ⟨_, ⟨true, c⟩, hset, ⟨hs.idle, hs.quiet, (List.length_set).trans hs.bank⟩, rfl, ?_, rfl, ?_⟩
  · exact List.getElem?_set_self hlen
  · rw [hc, Nat.mod_eq_of_lt hP]

/-! ## Any number of entries -/

/-- Every poll of `h` comes before the `n`-th tick. -/
def PollsBefore (h : Byte) (n : Nat) (es : List Instr) : Prop :=
  ∀ pre post, es = pre ++ .swtIst h :: post → ticks pre < n

theorem ticks_cons (x : Instr) (es : List Instr) : ticks (x :: es) = ticks [x] + ticks es := by
  rw [ticks, ticks, ticks, ← List.count_append]
  rfl

theorem pollsBefore_nil (h : Byte) (n : Nat) : PollsBefore h n [] := by
  intro pre post heq
  simp at heq

theorem pollsBefore_cons {h : Byte} {n : Nat} {x : Instr} {es : List Instr} :
    PollsBefore h n (x :: es) ↔ (x = .swtIst h → 0 < n) ∧ PollsBefore h (n - ticks [x]) es := by
  constructor
  · refine fun hall => ⟨?_, fun pre post heq => ?_⟩
    · rintro rfl
      exact hall [] es rfl
    · have hlt := hall (x :: pre) post (by rw [heq, List.cons_append])
      rw [ticks_cons] at hlt
      omega
  · rintro ⟨hfirst, hrest⟩ pre post heq
    obtain ⟨rfl, heq⟩ | ⟨pre', rfl, rfl⟩ := List.cons_eq_append_iff.mp heq
    · cases heq
      exact hfirst rfl
    · have hlt := hrest pre' post rfl
      rw [ticks_cons]
      omega

theorem run_ticksAndPolls {h : Byte} {rest : List Turn} {es : List Instr} {s : State} {t : SwTimer} (hs : Polling s)
    (hes : ∀ x ∈ es, TickOrPoll s.params.nSwt x) (ht : s.swt[h.toNat]? = some t) (htrace : s.trace = es.map entry ++ rest) :
    ∃ s' t', Sys2Proof.core.run es.length s = .next s' ∧ Polling s' ∧ s'.params = s.params ∧ s'.trace = rest
      ∧ s'.swt[h.toNat]? = some t' ∧ t'.count.toNat = t.count.toNat - ticks es
      ∧ (t'.active = true ↔ t.active = true ∧ PollsBefore h t.count.toNat es) := by
  induction es generalizing s t with
  | nil => exact ⟨s, t, rfl, hs, rfl, htrace, ht, rfl, by simp [pollsBefore_nil]⟩
  | cons x es ih =>
    obtain ⟨hx, hrest⟩ := List.forall_mem_cons.mp hes
    have hs₀ : Polling { s with trace := es.map entry ++ rest } := ⟨hs.idle, hs.quiet, hs.bank⟩
    obtain ⟨s₁, t₁, hexec, hs₁, hparams₁, ht₁, hcount₁, hactive₁⟩ := exec_tickOrPoll hs₀ ht hx
    have hstep : step s = .next s₁ := (step_entry hx.wellFormed htrace).trans hexec
    have htrace₁ : s₁.trace = es.map entry ++ rest := (step_effect hstep).trace.trans (congrArg List.tail htrace)
    obtain ⟨s', t', hrun, hs', hparams, htrace', ht', hcount, hactive⟩ := ih hs₁ (hparams₁ ▸ hrest) ht₁ htrace₁
    refine ⟨s', t', (run_succ hstep _).trans hrun, hs', hparams.trans hparams₁, htrace', ht', ?_, ?_⟩
    · rw [hcount, hcount₁, ticks_cons x es]
      omega
    · rw [hactive, hactive₁, hcount₁, pollsBefore_cons, and_assoc]

/-- Settles O51: the count is the period less the ticks, and the flag stays up while every poll came before the last tick of the
period. -/
theorem timerExpiresOnceAfterItsPeriod : Obligations.TimerExpiresOnceAfterItsPeriod := by
  intro s h P es rest hs hfg hh hP hblank hscan hes
  obtain ⟨-, -, -, -, -, -, -, -, -, hW⟩ := paramsWf_bounds hs.params
  let s₀ := running s (es.map entry ++ entry (.swtIst h) :: rest)
  have hs₀ : Polling s₀ := ⟨hfg, displayQuiet_iff.mpr ⟨hblank, hscan⟩, hs.bank⟩
  obtain ⟨s₁, t₁, hset, hs₁, hparams₁, ht₁, hactive₁, hcount₁⟩ := exec_swtSet_of_polling hs₀ hh hW hP
  have hwf : (Instr.swtSet h P).wellFormed s.params.nSwt = true := decide_eq_true hh
  have hfirst := (step_entry (s := running s (entry (.swtSet h P) :: s₀.trace)) hwf rfl).trans hset
  obtain ⟨s₂, t₂, hrun, hs₂, hparams₂, htrace₂, ht₂, hcount₂, hactive₂⟩ :=
    run_ticksAndPolls hs₁ (hparams₁ ▸ hes) ht₁ (step_effect hfirst).trace
  have hh₂ : h.toNat < s₂.params.nSwt := by rwa [hparams₂, hparams₁]
  have hwf₂ : (Instr.swtIst h).wellFormed s₂.params.nSwt = true := decide_eq_true hh₂
  have hlast := (step_entry hwf₂ htrace₂).trans
    (exec_swtIst (s := { s₂ with trace := rest }) hs₂.idle hh₂ ht₂)
  have hall := ((run_succ hfirst _).trans (run_add hrun 1)).trans ((run_succ hlast 0).trans (run_zero _))
  refine ⟨_, _, hall, rfl, rfl, ?_⟩
  rw [expired_eq_true_iff, hactive₂, hcount₂, hcount₁, hactive₁, eq_self, true_and, and_comm, Nat.sub_eq_zero_iff_le]
  rfl

end Sys2Proof.Machine
end

section
/-! Clocks of the running scan timer, one after another, and one period of the reference schedule (R100, R106, R108). -/

namespace Sys2Proof.Machine

open Sys2Proof.Claims

/-! ## The counter during a period -/

/-- `u` with its counter at `n` and its two display flags as given. -/
def counting (u : State) (n : Nat) (ovf mat : Bool) : State :=
  { u with cnt := BitVec.ofNat 8 n, ovfPend := ovf, cmpPend := mat }

/-- One clock, in numbers: the counter goes on or wraps, the flags rise by the value it had (R100). -/
theorem clockEffect_counting {u : State} (hmax : u.params.timerMax ≤ 255) {n : Nat} (hn : n ≤ u.params.timerMax)
    (ovf mat : Bool) :
    clockEffect (counting u n ovf mat)
      = counting u (if n = u.params.timerMax then 0 else n + 1) (ovf || decide (n = u.params.timerMax))
          (mat || decide (n = u.cmp.toNat)) := by
  have hcnt : (BitVec.ofNat 8 n).toNat = n := (BitVec.toNat_ofNat _ _).trans (Nat.mod_eq_of_lt (by omega))
  have hmatch : BitVec.ofNat 8 n = u.cmp ↔ n = u.cmp.toNat := by rw [← BitVec.toNat_inj, hcnt]
  have hnext : nextCount (counting u n ovf mat) = BitVec.ofNat 8 (if n = u.params.timerMax then 0 else n + 1) := by
    apply BitVec.eq_of_toNat_eq
    rw [nextCount_toNat (s := counting u n ovf mat) hmax (hcnt.le.trans hn), BitVec.toNat_ofNat]
    simp only [counting, hcnt]
    split <;> omega
  rw [clockEffect_eq, hnext]
  simp only [counting, hcnt, hmatch]

/-- A clock that is neither the match nor the overflow only counts. -/
theorem clockEffect_counting_quiet {u : State} (hmax : u.params.timerMax ≤ 255) {n : Nat} (hn : n < u.params.timerMax)
    (hcmp : n ≠ u.cmp.toNat) :
    clockEffect (counting u n false false) = counting u (n + 1) false false := by
  rw [clockEffect_counting hmax hn.le, if_neg hn.ne]
  simp [hn.ne, hcmp]

theorem clockEffect_iterate_quiet {u : State} (hmax : u.params.timerMax ≤ 255) {n k : Nat}
    (hk : n + k ≤ u.params.timerMax) (hcmp : n + k ≤ u.cmp.toNat ∨ u.cmp.toNat < n) :
    clockEffect^[k] (counting u n false false) = counting u (n + k) false false := by
  induction k with
  | zero => rfl
  | succ k ih =>
    rw [Function.iterate_succ_apply', ih (by omega) (by omega), clockEffect_counting_quiet hmax (by omega) (by omega)]
    rfl

/-- The clocks up to the match (R106). -/
theorem clockEffect_iterate_match {u : State} (hmax : u.params.timerMax ≤ 255) (hcmp : u.cmp.toNat ≤ u.params.timerMax) :
    clockEffect^[u.cmp.toNat + 1] (counting u 0 false false)
      = counting u (if u.cmp.toNat = u.params.timerMax then 0 else u.cmp.toNat + 1)
          (decide (u.cmp.toNat = u.params.timerMax)) true := by
  rw [Function.iterate_succ_apply', clockEffect_iterate_quiet hmax (by omega) (by omega), Nat.zero_add,
    clockEffect_counting hmax hcmp]
  simp

/-- The clocks from the match to the overflow; at `CMP = TIMER_MAX` there are none left (R106). -/
theorem clockEffect_iterate_overflow {u : State} (hmax : u.params.timerMax ≤ 255)
    (hcmp : u.cmp.toNat ≤ u.params.timerMax) :
    clockEffect^[u.params.timerMax - u.cmp.toNat]
        (counting u (if u.cmp.toNat = u.params.timerMax then 0 else u.cmp.toNat + 1)
          (decide (u.cmp.toNat = u.params.timerMax)) false)
      = counting u 0 true false := by
  by_cases htop : u.cmp.toNat = u.params.timerMax
  · simp [htop]
  · obtain ⟨k, hk⟩ : ∃ k, u.params.timerMax - u.cmp.toNat = k + 1 := ⟨u.params.timerMax - u.cmp.toNat - 1, by omega⟩
    have hend : u.cmp.toNat + 1 + k = u.params.timerMax := by omega
    rw [if_neg htop, decide_eq_false htop, hk, Function.iterate_succ_apply',
      clockEffect_iterate_quiet hmax (by omega) (by omega), hend, clockEffect_counting hmax le_rfl]
    simp [Ne.symm htop]

/-! ## Clocks leave the rest -/

theorem clockEffect_iterate_port (u : State) (k : Nat) :
    (clockEffect^[k] u).run = u.run ∧ (clockEffect^[k] u).dir = u.dir ∧ (clockEffect^[k] u).out = u.out := by
  induction k with
  | zero => exact ⟨rfl, rfl, rfl⟩
  | succ k ih =>
    rw [Function.iterate_succ_apply']
    exact ih

theorem step_tclk {u : State} (hrun : u.run = true) (ts : List Turn) :
    step (running u (entry .tclk :: ts)) = .next (running (clockEffect u) ts) :=
  (step_label decode_encode_tclk rfl).trans (exec_tclk_of_running (s := running u ts) hrun)

theorem run_clocks {u : State} (hrun : u.run = true) (k : Nat) (ts : List Turn) :
    Sys2Proof.core.run k (running u (repeated .tclk k ++ ts)) = .next (running (clockEffect^[k] u) ts) := by
  induction k generalizing u with
  | zero => rfl
  | succ k ih =>
    rw [repeated, List.replicate_succ, List.cons_append, run_succ (step_tclk hrun _)]
    exact ih hrun

theorem repeated_append (i : Instr) {j k : Nat} (h : j ≤ k) (ts : List Turn) :
    repeated i k ++ ts = repeated i j ++ (repeated i (k - j) ++ ts) := by
  rw [← List.append_assoc, repeated, repeated, repeated, ← List.replicate_add, Nat.add_sub_cancel' h]

/-- Some of the clocks that stand next in the schedule. -/
theorem run_clocks_of_le {u : State} (hrun : u.run = true) {j k : Nat} (h : j ≤ k) (ts : List Turn) :
    Sys2Proof.core.run j (running u (repeated .tclk k ++ ts))
      = .next (running (clockEffect^[j] u) (repeated .tclk (k - j) ++ ts)) := by
  rw [repeated_append .tclk h, run_clocks hrun]

/-! ## The four parts of a period -/

/-- The machine after the `SCAN` of a period. -/
def scanned (s : State) : State :=
  { s with
    ovfPend := false, dir := (cursorSlot s).active, out := (cursorSlot s).anode,
    cursor := BitVec.ofNat 8 ((s.cursor.toNat + 1) % 25) }

/-- The machine after a `BLANK`. -/
def blanked (s : State) : State := { s with cmpPend := false, out := 0 }

/-- After the clocks from the `SCAN` to the match. -/
def matched (s : State) : State := clockEffect^[s.cmp.toNat + 1] (scanned s)

/-- At the end of the period. -/
def overflowed (s : State) : State := clockEffect^[s.params.timerMax - s.cmp.toNat] (blanked (matched s))

theorem periodOf_eq (s : State) :
    periodOf s = entry .scan :: (repeated .tclk (s.cmp.toNat + 1)
      ++ entry .blank :: repeated .tclk (s.params.timerMax - s.cmp.toNat)) := rfl

theorem periodOf_length (s : State) : (periodOf s).length = s.cmp.toNat + 3 + (s.params.timerMax - s.cmp.toNat) := by
  simp only [periodOf_eq, repeated, List.length_cons, List.length_append, List.length_replicate]
  omega

end Sys2Proof.Machine

namespace Sys2Proof.Claims

open Sys2Proof.Machine

section
variable {s : State} (hs : PeriodStart s)
include hs

theorem PeriodStart.timerMax_le : s.params.timerMax ≤ 255 := (paramsWf_bounds hs.legal.params).2.1

theorem PeriodStart.cursor_lt : s.cursor.toNat < 25 := Nat.lt_succ_of_le hs.legal.cursor

theorem PeriodStart.scanEligible : scanEligible s = true :=
  scanEligible_iff.mpr ⟨hs.run, hs.ovfEn, hs.ovfPend, fun h => by simp [hs.cmpPend] at h⟩

theorem PeriodStart.exec_scan (ts : List Turn) : exec .scan (running s ts) = .next (running (scanned s) ts) := by
  have hexec := exec_scan_of_eligible (s := running s ts) hs.scanEligible hs.cursor_lt
  rw [scanned, cursorSlot_eq hs.cursor_lt]
  exact hexec

theorem PeriodStart.step_scan (ts : List Turn) :
    step (running s (entry .scan :: ts)) = .next (running (scanned s) ts) :=
  (step_label decode_encode_scan rfl).trans (hs.exec_scan ts)

theorem PeriodStart.scanned_eq : scanned s = counting (scanned s) 0 false false := by
  simp [counting, scanned, hs.cnt, hs.cmpPend]

theorem PeriodStart.matched_eq :
    matched s = counting (scanned s) (if s.cmp.toNat = s.params.timerMax then 0 else s.cmp.toNat + 1)
      (decide (s.cmp.toNat = s.params.timerMax)) true := by
  rw [matched, hs.scanned_eq]
  exact clockEffect_iterate_match (u := scanned s) hs.timerMax_le hs.legal.cmp

theorem PeriodStart.step_blank (ts : List Turn) :
    step (running (matched s) (entry .blank :: ts)) = .next (running (blanked (matched s)) ts) := by
  have he : blankEligible (matched s) = true := by
    rw [hs.matched_eq]
    exact blankEligible_iff.mpr ⟨hs.run, hs.cmpEn, rfl⟩
  exact (step_label decode_encode_blank rfl).trans (exec_blank_of_eligible (s := running (matched s) ts) he)

theorem PeriodStart.overflowed_eq : overflowed s = counting (blanked (scanned s)) 0 true false := by
  rw [overflowed, hs.matched_eq]
  exact clockEffect_iterate_overflow (u := blanked (scanned s)) hs.timerMax_le hs.legal.cmp

/-- The end of the period is its start, with the cursor one slot on and the slot's drivers left (R106). -/
theorem PeriodStart.overflowed_eq_start :
    overflowed s = { s with
      cursor := BitVec.ofNat 8 ((s.cursor.toNat + 1) % 25), dir := (cursorSlot s).active, out := 0 } := by
  rw [hs.overflowed_eq]
  simp [counting, blanked, scanned, hs.cnt, hs.ovfPend, hs.cmpPend]

/-! ## Running a period -/

/-- From the `SCAN` up to the match. -/
theorem PeriodStart.run_scan_clocks {j : Nat} (hj : j ≤ s.cmp.toNat + 1) (rest : List Turn) :
    ∃ ts, Sys2Proof.core.run (1 + j) (running s (periodOf s ++ rest))
      = .next (running (clockEffect^[j] (scanned s)) ts) := by
  rw [periodOf_eq, List.cons_append, List.append_assoc, run_add ((run_succ (hs.step_scan _) 0).trans (run_zero _))]
  exact ⟨_, run_clocks_of_le (u := scanned s) hs.run hj _⟩

/-- Through the `BLANK`. -/
theorem PeriodStart.run_blank (rest : List Turn) :
    Sys2Proof.core.run (s.cmp.toNat + 3) (running s (periodOf s ++ rest))
      = .next (running (blanked (matched s)) (repeated .tclk (s.params.timerMax - s.cmp.toNat) ++ rest)) := by
  rw [periodOf_eq, List.cons_append, List.append_assoc, run_succ (hs.step_scan _)]
  have hclocks := run_clocks (u := scanned s) hs.run (s.cmp.toNat + 1)
    (entry .blank :: (repeated .tclk (s.params.timerMax - s.cmp.toNat) ++ rest))
  exact (run_add hclocks 1).trans ((run_succ (hs.step_blank _) 0).trans (run_zero _))

/-- From the `BLANK` up to the overflow. -/
theorem PeriodStart.run_blank_clocks {j : Nat} (hj : j ≤ s.params.timerMax - s.cmp.toNat) (rest : List Turn) :
    Sys2Proof.core.run (s.cmp.toNat + 3 + j) (running s (periodOf s ++ rest))
      = .next (running (clockEffect^[j] (blanked (matched s)))
          (repeated .tclk (s.params.timerMax - s.cmp.toNat - j) ++ rest)) := by
  have hrun : (blanked (matched s)).run = true := (clockEffect_iterate_port _ _).1.trans hs.run
  rw [run_add (hs.run_blank rest), run_clocks_of_le hrun hj]

theorem PeriodStart.run_period (rest : List Turn) :
    Sys2Proof.core.run (periodOf s).length (running s (periodOf s ++ rest)) = .next (running (overflowed s) rest) := by
  rw [periodOf_length, hs.run_blank_clocks le_rfl, Nat.sub_self]
  rfl

/-- The port during a period: the slot from the `SCAN` on, its levels low from the `BLANK` on (R106, R108). -/
theorem PeriodStart.run_port (rest : List Turn) {k : Nat} (hk : 1 ≤ k) (hlen : k ≤ (periodOf s).length) :
    ∃ u : State, Sys2Proof.core.run k (running s (periodOf s ++ rest)) = .next u
      ∧ u.dir = (cursorSlot s).active ∧ u.out = if k ≤ s.cmp.toNat + 2 then (cursorSlot s).anode else 0 := by
  by_cases hlit : k ≤ s.cmp.toNat + 2
  · obtain ⟨j, rfl⟩ : ∃ j, k = 1 + j := ⟨k - 1, by omega⟩
    obtain ⟨ts, hrun⟩ := hs.run_scan_clocks (by omega : j ≤ s.cmp.toNat + 1) rest
    obtain ⟨-, hdir, hout⟩ := clockEffect_iterate_port (scanned s) j
    exact ⟨_, hrun, hdir, by rw [if_pos hlit]; exact hout⟩
  · obtain ⟨j, rfl⟩ : ∃ j, k = s.cmp.toNat + 3 + j := ⟨k - (s.cmp.toNat + 3), by omega⟩
    rw [periodOf_length] at hlen
    obtain ⟨-, hdir, hout⟩ := clockEffect_iterate_port (blanked (matched s)) j
    obtain ⟨-, hdir', -⟩ := clockEffect_iterate_port (scanned s) (s.cmp.toNat + 1)
    exact ⟨_, hs.run_blank_clocks (by omega) rest, hdir.trans hdir', by rw [if_neg hlit]; exact hout⟩

end

end Sys2Proof.Claims

namespace Sys2Proof.Machine

open Sys2Proof.Claims

theorem nextCursor_toNat (n : Nat) : (BitVec.ofNat 8 ((n + 1) % 25)).toNat = (n + 1) % 25 :=
  (BitVec.toNat_ofNat _ _).trans (Nat.mod_eq_of_lt (by omega))

/-- Settles O42: a period is `SCAN`, the clocks to the match, `BLANK` and the clocks to the overflow; clocks leave the port. -/
theorem referencePeriodDrivesOneSlot : Obligations.ReferencePeriodDrivesOneSlot := by
  intro s rest hs
  refine ⟨⟨_, nextCursor_toNat s.cursor.toNat, ?_⟩, fun k hk hlen => hs.run_port rest hk hlen⟩
  rw [hs.run_period, hs.overflowed_eq_start]
  rfl

/-! ## Periods one after another -/

theorem legal_of_running {s : State} {ts : List Turn} (h : Legal (running s ts)) : Legal s := h.withTrace s.trace

theorem periodStart_overflowed {s : State} (hs : PeriodStart s) : PeriodStart (overflowed s) where
  legal := legal_of_running (run_legal (hs.legal.withTrace _) (hs.run_period []))
  run := by rw [hs.overflowed_eq_start]; exact hs.run
  ovfEn := by rw [hs.overflowed_eq_start]; exact hs.ovfEn
  cmpEn := by rw [hs.overflowed_eq_start]; exact hs.cmpEn
  cnt := by rw [hs.overflowed_eq_start]; exact hs.cnt
  ovfPend := by rw [hs.overflowed_eq_start]; exact hs.ovfPend
  cmpPend := by rw [hs.overflowed_eq_start]; exact hs.cmpPend

/-- `u` is at the start of the period `k` periods after the one that starts in `s`. -/
structure PeriodsLater (k : Nat) (s u : State) : Prop where
  start : PeriodStart u
  params : u.params = s.params
  cmp : u.cmp = s.cmp
  buf : u.buf = s.buf
  cursor : u.cursor.toNat = (s.cursor.toNat + k) % 25

theorem PeriodsLater.periodOf_eq {k : Nat} {s u : State} (h : PeriodsLater k s u) : periodOf u = periodOf s := by
  rw [periodOf, periodOf, h.params, h.cmp]

theorem PeriodsLater.succ {k : Nat} {s u : State} (h : PeriodsLater k s u) : PeriodsLater (k + 1) s (overflowed u) := by
  refine ⟨periodStart_overflowed h.start, ?_, ?_, ?_, ?_⟩ <;> rw [h.start.overflowed_eq_start]
  · exact h.params
  · exact h.cmp
  · exact h.buf
  · rw [nextCursor_toNat, h.cursor, Nat.mod_add_mod, Nat.add_assoc]

theorem run_periods {s : State} (hs : PeriodStart s) (k : Nat) (ts : List Turn) :
    ∃ u, PeriodsLater k s u
      ∧ Sys2Proof.core.run (k * (periodOf s).length) (running s ((List.replicate k (periodOf s)).flatten ++ ts))
        = .next (running u ts) := by
  induction k generalizing ts with
  | zero => exact ⟨s, ⟨hs, rfl, rfl, rfl, (Nat.mod_eq_of_lt hs.cursor_lt).symm⟩, by rw [Nat.zero_mul]; rfl⟩
  | succ k ih =>
    obtain ⟨u, hu, hrun⟩ := ih (periodOf s ++ ts)
    refine ⟨overflowed u, hu.succ, ?_⟩
    have hlast := hu.start.run_period ts
    rw [hu.periodOf_eq] at hlast
    rw [List.replicate_succ', List.flatten_append, List.flatten_singleton, List.append_assoc, Nat.succ_mul,
      run_add hrun, hlast]

/-- Settles O43: after `k` periods the next `SCAN` applies slot `k` places on from the cursor, and 25 places on is the cursor. -/
theorem frameRendersTheBuffer : Obligations.FrameRendersTheBuffer := by
  intro s rest hs frame
  refine ⟨fun k hk => ?_, ?_⟩
  · obtain ⟨m, hm⟩ : ∃ m, 25 = k + (m + 1) := ⟨24 - k, by omega⟩
    have hsplit : frame ++ rest = (List.replicate k (periodOf s)).flatten
        ++ (periodOf s ++ ((List.replicate m (periodOf s)).flatten ++ rest)) := by
      simp only [frame, hm, List.replicate_add, List.replicate_succ, List.flatten_append, List.flatten_cons,
        List.append_assoc]
    obtain ⟨u, hu, hrun⟩ := run_periods hs k (periodOf s ++ ((List.replicate m (periodOf s)).flatten ++ rest))
    rw [hsplit, run_add hrun, ← hu.periodOf_eq, periodOf_eq, List.cons_append]
    refine ⟨_, (run_succ (hu.start.step_scan _) 0).trans (run_zero _), ?_, hu.buf⟩
    rw [← hu.cursor, ← hu.buf, Vector.getElem?_eq_getElem hu.start.cursor_lt, ← cursorSlot_eq hu.start.cursor_lt]
    rfl
  · obtain ⟨u, hu, hrun⟩ := run_periods hs 25 rest
    have hlen : frame.length = 25 * (periodOf s).length := by
      rw [List.length_flatten, List.map_replicate, List.sum_replicate, smul_eq_mul]
    have hcursor : u.cursor = s.cursor := by
      apply BitVec.eq_of_toNat_eq
      rw [hu.cursor, Nat.add_mod_right, Nat.mod_eq_of_lt hs.cursor_lt]
    have hstart := hu.start
    exact ⟨running u rest, hlen ▸ hrun, hcursor, hu.buf, rfl, hstart.legal.withTrace rest, hstart.run, hstart.ovfEn,
      hstart.cmpEn, hstart.cnt, hstart.ovfPend, hstart.cmpPend⟩

end Sys2Proof.Machine
end

section
/-! The shorthand `PERIOD` (R72). -/

namespace Sys2Proof.Machine

open Sys2Proof.Claims

/-! ## One clock, expanded -/

theorem after_of_next {s s' : State} {i : Instr} (h : exec i s = .next s') : after s i = s' := by
  rw [after, h]

theorem after_tclk {s : State} (hrun : s.run = true) : after s .tclk = clockEffect s :=
  after_of_next (exec_tclk_of_running hrun)

theorem after_blank {s : State} (he : blankEligible s = true) : after s .blank = blanked s :=
  after_of_next (exec_blank_of_eligible he)

section
variable {s : State} (hrun : s.run = true)
include hrun

theorem expandClock_quiet (hblank : blankEligible (clockEffect s) = false) (hscan : scanEligible (clockEffect s) = false) :
    expandClock s = ([entry .tclk], clockEffect s) := by
  simp [expandClock, after_tclk hrun, hblank, hscan]

theorem expandClock_blank (hblank : blankEligible (clockEffect s) = true)
    (hscan : scanEligible (blanked (clockEffect s)) = false) :
    expandClock s = ([entry .tclk, entry .blank], blanked (clockEffect s)) := by
  simp [expandClock, after_tclk hrun, hblank, after_blank hblank, hscan]

theorem expandClock_blank_scan (hblank : blankEligible (clockEffect s) = true)
    (hscan : scanEligible (blanked (clockEffect s)) = true) :
    (expandClock s).1 = [entry .tclk, entry .blank, entry .scan] := by
  simp [expandClock, after_tclk hrun, hblank, after_blank hblank, hscan]

theorem expandClock_scan (hblank : blankEligible (clockEffect s) = false) (hscan : scanEligible (clockEffect s) = true) :
    (expandClock s).1 = [entry .tclk, entry .scan] := by
  simp [expandClock, after_tclk hrun, hblank, hscan]

end

/-! ## Clocks, expanded one after another -/

theorem expandClocks_succ (n : Nat) (s : State) :
    expandClocks (n + 1) s
      = ((expandClock s).1 ++ (expandClocks n (expandClock s).2).1, (expandClocks n (expandClock s).2).2) := rfl

theorem expandClocks_one (s : State) : (expandClocks 1 s).1 = (expandClock s).1 := by
  simp [expandClocks]

theorem expandClocks_add (m n : Nat) (s : State) :
    (expandClocks (m + n) s).1 = (expandClocks m s).1 ++ (expandClocks n (expandClocks m s).2).1 := by
  induction m generalizing s with
  | zero => rw [Nat.zero_add]; rfl
  | succ m ih =>
    rw [Nat.succ_add, expandClocks_succ, expandClocks_succ, ih, List.append_assoc]

/-! ## Eligibility while counting -/

section
variable {u : State} (hrun : u.run = true) (hovfEn : u.ovfEn = true) (hcmpEn : u.cmpEn = true)
include hrun hcmpEn

theorem blankEligible_counting (n : Nat) (ovf mat : Bool) : blankEligible (counting u n ovf mat) = mat := by
  simp [blankEligible, counting, hrun, hcmpEn]

include hovfEn

theorem scanEligible_counting (n : Nat) (ovf mat : Bool) : scanEligible (counting u n ovf mat) = (ovf && !mat) := by
  rw [scanEligible, blankEligible_counting hrun hcmpEn]
  simp [counting, hrun, hovfEn]

variable (hmax : u.params.timerMax ≤ 255)
include hmax

theorem expandClocks_quiet {n k : Nat} (hk : n + k ≤ u.params.timerMax) (hcmp : n + k ≤ u.cmp.toNat ∨ u.cmp.toNat < n) :
    expandClocks k (counting u n false false) = (repeated .tclk k, counting u (n + k) false false) := by
  induction k generalizing n with
  | zero => rfl
  | succ k ih =>
    have hclock := clockEffect_counting_quiet hmax (n := n) (by omega) (by omega)
    have hexpand : expandClock (counting u n false false) = ([entry .tclk], counting u (n + 1) false false) := by
      have hblank := blankEligible_counting hrun hcmpEn (n + 1) false false
      have hscan := scanEligible_counting hrun hovfEn hcmpEn (n + 1) false false
      rw [← hclock] at hblank hscan ⊢
      exact expandClock_quiet (s := counting u n false false) hrun hblank hscan
    rw [expandClocks_succ, hexpand, ih (by omega) (by omega), Nat.add_assoc, Nat.add_comm 1 k]
    rfl

/-- The clock of the match, before the top of the count. -/
theorem expandClock_match (htop : u.cmp.toNat < u.params.timerMax) :
    expandClock (counting u u.cmp.toNat false false)
      = ([entry .tclk, entry .blank], counting (blanked u) (u.cmp.toNat + 1) false false) := by
  have hclock : clockEffect (counting u u.cmp.toNat false false) = counting u (u.cmp.toNat + 1) false true := by
    rw [clockEffect_counting hmax htop.le, if_neg htop.ne]
    simp [htop.ne]
  have hblank := blankEligible_counting hrun hcmpEn (u.cmp.toNat + 1) false true
  have hscan := scanEligible_counting (u := blanked u) hrun hovfEn hcmpEn (u.cmp.toNat + 1) false false
  rw [← hclock] at hblank
  rw [expandClock_blank (s := counting u u.cmp.toNat false false) hrun hblank (by rw [hclock]; exact hscan), hclock]
  rfl

/-- The clock of the match at the top of the count, which is the overflow too. -/
theorem expandClock_match_top (htop : u.cmp.toNat = u.params.timerMax) :
    (expandClock (counting u u.cmp.toNat false false)).1 = [entry .tclk, entry .blank, entry .scan] := by
  have hclock : clockEffect (counting u u.cmp.toNat false false) = counting u 0 true true := by
    rw [clockEffect_counting hmax htop.le, if_pos htop]
    simp [htop]
  have hblank := blankEligible_counting hrun hcmpEn 0 true true
  have hscan := scanEligible_counting (u := blanked u) hrun hovfEn hcmpEn 0 true false
  rw [← hclock] at hblank
  exact expandClock_blank_scan (s := counting u u.cmp.toNat false false) hrun hblank (by rw [hclock]; exact hscan)

/-- The clock of the overflow, after the match. -/
theorem expandClock_overflow (htop : u.cmp.toNat < u.params.timerMax) :
    (expandClock (counting u u.params.timerMax false false)).1 = [entry .tclk, entry .scan] := by
  have hclock : clockEffect (counting u u.params.timerMax false false) = counting u 0 true false := by
    rw [clockEffect_counting hmax le_rfl]
    simp [htop.ne']
  have hblank := blankEligible_counting hrun hcmpEn 0 true false
  have hscan := scanEligible_counting hrun hovfEn hcmpEn 0 true false
  rw [← hclock] at hblank hscan
  exact expandClock_scan (s := counting u u.params.timerMax false false) hrun hblank hscan

end

theorem repeated_succ (i : Instr) (n : Nat) : repeated i (n + 1) = repeated i n ++ [entry i] := List.replicate_succ'

/-- Settles O45: of the clocks from 0 to the top only the match and the overflow raise a flag, each serviced at once. -/
theorem periodExpandsToOneBlankAndOneScan : Obligations.PeriodExpandsToOneBlankAndOneScan := by
  intro s hs hrun hovfEn hcmpEn hcnt hovf hcmp
  have hmax : s.params.timerMax ≤ 255 := (paramsWf_bounds hs.params).2.1
  have hcmpMax := hs.cmp
  have hstart : counting s 0 false false = s := by
    cases s
    simp_all [counting]
  have hquiet := expandClocks_quiet hrun hovfEn hcmpEn hmax (n := 0) (k := s.cmp.toNat) (by omega) (by omega)
  rw [hstart, Nat.zero_add] at hquiet
  by_cases htop : s.cmp.toNat = s.params.timerMax
  · rw [period, ← htop, expandClocks_add, hquiet, expandClocks_one, expandClock_match_top hrun hovfEn hcmpEn hmax htop,
      repeated_succ, Nat.sub_self]
    simp [repeated]
  · obtain ⟨k, hk⟩ : ∃ k, s.params.timerMax = s.cmp.toNat + 1 + k := ⟨s.params.timerMax - s.cmp.toNat - 1, by omega⟩
    have hlt : s.cmp.toNat < s.params.timerMax := by omega
    have hquiet' := expandClocks_quiet (u := blanked s) hrun hovfEn hcmpEn hmax (n := s.cmp.toNat + 1) (k := k) hk.ge
      (.inr (Nat.lt_succ_self _))
    have hlast : (expandClock (counting (blanked s) s.params.timerMax false false)).1 = [entry .tclk, entry .scan] :=
      expandClock_overflow (u := blanked s) hrun hovfEn hcmpEn hmax hlt
    have hlen : s.params.timerMax + 1 = s.cmp.toNat + (k + 1 + 1) := by omega
    have hend : s.params.timerMax - s.cmp.toNat = k + 1 := by omega
    rw [← hk] at hquiet'
    rw [period, hlen, expandClocks_add, hquiet, expandClocks_succ, expandClock_match hrun hovfEn hcmpEn hmax hlt,
      expandClocks_add, hquiet', expandClocks_one, hlast, hend, repeated_succ,
      repeated_succ]
    simp

end Sys2Proof.Machine
end

section
/-! The latency bound (R105): the reference schedule keeps it, one clock too many breaks it. -/

namespace Sys2Proof.Machine

open Sys2Proof.Claims

/-! ## One entry of a schedule -/

/-- No event waits. -/
def noWaits : Waits := ⟨none, none, none⟩

theorem mayClock_noWaits (s : State) : mayClock s noWaits = true := rfl

theorem get_nextWaits (clock : Bool) (s : State) (a : Waits) (e : Event) :
    (nextWaits clock s a).get e = nextWait clock s e (a.get e) := by cases e <;> rfl

theorem nextWaits_of_nothing_pending {s : State} (h : ∀ e, pending s e = false) (clock : Bool) (a : Waits) :
    nextWaits clock s a = noWaits := by
  simp only [nextWaits, nextWait_of_not_pending (h _), noWaits]

theorem isClock_entry (i : Instr) (s : State) (hd : ∀ n, decode n (encode i) = some i) :
    isClock (entry i) s = (decide (i = .tclk) && s.run) := by
  simp [isClock, entry, hd]

/-- What the schedule says of the waits does not depend on the one the state carries. -/
theorem servicedFrom_running (ts : List Turn) (a : Waits) (s : State) (us : List Turn) :
    servicedFrom ts a (running s us) = servicedFrom ts a s := by cases ts <;> rfl

/-- An entry that is no clock, or a clock when nothing has waited too long, is within the bound. -/
theorem servicedFrom_entry {i : Instr} {s s' : State} {ts : List Turn} {a : Waits} (hd : ∀ n, decode n (encode i) = some i)
    (hexec : exec i (running s ts) = .next (running s' ts)) (hmay : i = .tclk → mayClock s a = true) :
    servicedFrom (entry i :: ts) a s = servicedFrom ts (nextWaits (isClock (entry i) s) s' a) s' := by
  have hturn : runTurn (entry i) { s with trace := ts } = .next (running s' ts) := by
    simp only [runTurn, entry, runWord, hd]
    exact hexec
  have hclock : (!isClock (entry i) s || mayClock s a) = true := by
    rw [isClock_entry i s hd]
    by_cases hi : i = .tclk
    · simp [hmay hi]
    · simp [hi]
  rw [servicedFrom, hclock, Bool.true_and, hturn]
  exact servicedFrom_running ts _ s' ts

theorem servicedFrom_tclk {s : State} (hrun : s.run = true) (ts : List Turn) {a : Waits} (hmay : mayClock s a = true) :
    servicedFrom (entry .tclk :: ts) a s = servicedFrom ts (nextWaits true (clockEffect s) a) (clockEffect s) := by
  have hclock : isClock (entry .tclk) s = true := (isClock_entry .tclk s decode_encode_tclk).trans hrun
  rw [servicedFrom_entry (s' := clockEffect s) decode_encode_tclk (exec_tclk_of_running (s := running s ts) hrun)
    fun _ => hmay, hclock]

theorem servicedFrom_blank {s : State} (he : blankEligible s = true) (ts : List Turn) (a : Waits) :
    servicedFrom (entry .blank :: ts) a s = servicedFrom ts (nextWaits false (blanked s) a) (blanked s) := by
  have hclock : isClock (entry .blank) s = false := isClock_entry .blank s decode_encode_blank
  rw [servicedFrom_entry (s' := blanked s) decode_encode_blank (exec_blank_of_eligible (s := running s ts) he) (by simp),
    hclock]

/-! ## A period keeps every bound -/

theorem nothing_pending_counting {u : State} (hswt : u.swtPend = false) (n : Nat) (e : Event) :
    pending (counting u n false false) e = false := by
  cases e
  · rfl
  · rfl
  · exact hswt

theorem servicedFrom_quiet {u : State} (hrun : u.run = true) (hswt : u.swtPend = false) (hmax : u.params.timerMax ≤ 255)
    {n k : Nat} (hk : n + k ≤ u.params.timerMax) (hcmp : n + k ≤ u.cmp.toNat ∨ u.cmp.toNat < n) (ts : List Turn) :
    servicedFrom (repeated .tclk k ++ ts) noWaits (counting u n false false)
      = servicedFrom ts noWaits (counting u (n + k) false false) := by
  induction k generalizing n with
  | zero => rfl
  | succ k ih =>
    have hclock := clockEffect_counting_quiet hmax (n := n) (by omega) (by omega)
    rw [repeated, List.replicate_succ, List.cons_append,
      servicedFrom_tclk (s := counting u n false false) hrun _ (mayClock_noWaits _), hclock,
      nextWaits_of_nothing_pending (nothing_pending_counting hswt _)]
    exact (ih (by omega) (by omega)).trans (by rw [Nat.add_assoc, Nat.add_comm 1 k])

section
variable {s : State} (hs : PeriodStart s)
include hs

theorem clockEffect_to_matched : clockEffect (counting (scanned s) s.cmp.toNat false false) = matched s := by
  have hcmp := hs.legal.cmp
  conv_rhs => rw [matched, hs.scanned_eq]
  rw [Function.iterate_succ_apply', clockEffect_iterate_quiet (u := scanned s) hs.timerMax_le (by simpa [scanned] using hcmp)
    (by simp [scanned]), Nat.zero_add]

theorem clockEffect_to_overflowed (htop : s.cmp.toNat < s.params.timerMax) :
    clockEffect (counting (blanked (scanned s)) s.params.timerMax false false) = overflowed s := by
  rw [hs.overflowed_eq]
  refine (clockEffect_counting (u := blanked (scanned s)) hs.timerMax_le le_rfl false false).trans ?_
  simp [blanked, scanned, htop.ne']

variable (hswt : s.swtPend = false)
include hswt

/-- Up to the `BLANK` nothing waits when a clock comes, whatever waited for the period's `SCAN`. -/
theorem servicedFrom_to_blank (a : Waits) (ts : List Turn) :
    ∃ a', servicedFrom (periodOf s ++ ts) a s
      = servicedFrom (repeated .tclk (s.params.timerMax - s.cmp.toNat) ++ ts) (nextWaits false (blanked (matched s)) a')
          (blanked (matched s)) := by
  have hcmp := hs.legal.cmp
  have hscanned : nextWaits (isClock (entry .scan) s) (scanned s) a = noWaits := by
    rw [hs.scanned_eq]
    exact nextWaits_of_nothing_pending (nothing_pending_counting (u := scanned s) hswt 0) _ _
  have hquiet := servicedFrom_quiet (u := scanned s) hs.run hswt hs.timerMax_le (n := 0) (k := s.cmp.toNat)
    (by simpa [scanned] using hcmp) (by simp [scanned])
  rw [← hs.scanned_eq, Nat.zero_add] at hquiet
  have hmatch (us : List Turn) := servicedFrom_tclk (s := counting (scanned s) s.cmp.toNat false false) hs.run us
    (mayClock_noWaits _)
  rw [clockEffect_to_matched hs] at hmatch
  have hblank : blankEligible (matched s) = true := by
    rw [hs.matched_eq]
    exact blankEligible_counting (u := scanned s) hs.run hs.cmpEn _ _ _
  refine ⟨nextWaits true (matched s) noWaits, ?_⟩
  rw [periodOf_eq, List.cons_append, List.append_assoc, servicedFrom_entry decode_encode_scan (hs.exec_scan _) (by simp),
    hscanned, repeated_succ, List.append_assoc, hquiet, List.singleton_append, hmatch, List.cons_append,
    servicedFrom_blank hblank]

/-- A whole period ends where the next one starts. -/
theorem servicedFrom_period (a : Waits) (ts : List Turn) :
    ∃ a', servicedFrom (periodOf s ++ ts) a s = servicedFrom ts a' (overflowed s) := by
  obtain ⟨a₁, hblank⟩ := servicedFrom_to_blank hs hswt a ts
  rw [hblank]
  by_cases htop : s.cmp.toNat = s.params.timerMax
  · have hnone : overflowed s = blanked (matched s) := by rw [overflowed, htop, Nat.sub_self]; rfl
    rw [hnone, htop, Nat.sub_self]
    exact ⟨_, rfl⟩
  · have hcmp := hs.legal.cmp
    obtain ⟨k, hk⟩ : ∃ k, s.params.timerMax = s.cmp.toNat + 1 + k := ⟨s.params.timerMax - s.cmp.toNat - 1, by omega⟩
    have hblanked : blanked (matched s) = counting (blanked (scanned s)) (s.cmp.toNat + 1) false false := by
      rw [hs.matched_eq, if_neg htop, decide_eq_false htop]
      rfl
    have hend : s.params.timerMax - s.cmp.toNat = k + 1 := by omega
    have hquiet := servicedFrom_quiet (u := blanked (scanned s)) hs.run hswt hs.timerMax_le (n := s.cmp.toNat + 1) (k := k)
      hk.ge (.inr (Nat.lt_succ_self _))
    rw [← hk] at hquiet
    have hlast := servicedFrom_tclk (s := counting (blanked (scanned s)) s.params.timerMax false false) hs.run ts
      (mayClock_noWaits _)
    rw [clockEffect_to_overflowed hs (by omega)] at hlast
    refine ⟨nextWaits true (overflowed s) noWaits, ?_⟩
    rw [hend, hblanked, nextWaits_of_nothing_pending (nothing_pending_counting (u := blanked (scanned s)) hswt _),
      repeated_succ, List.append_assoc, hquiet, List.singleton_append, hlast]

end

theorem servicedFrom_periods {s : State} (hs : PeriodStart s) (hswt : s.swtPend = false) (n : Nat) (a : Waits) :
    servicedFrom (List.replicate n (periodOf s)).flatten a s = true := by
  induction n generalizing s a with
  | zero => rfl
  | succ n ih =>
    obtain ⟨a', hperiod⟩ := servicedFrom_period hs hswt a (List.replicate n (periodOf s)).flatten
    have hsame : periodOf (overflowed s) = periodOf s := by
      rw [hs.overflowed_eq_start]
      rfl
    have hswt' : (overflowed s).swtPend = false := by
      rw [hs.overflowed_eq_start]
      exact hswt
    rw [List.replicate_succ, List.flatten_cons, hperiod, ← hsame]
    exact ih (periodStart_overflowed hs) hswt' a'

/-! ## One clock too many -/

theorem mayClock_of_waited {s : State} {a : Waits} {e : Event} (h : a.get e = some s.params.maxServiceLatency) :
    mayClock s a = false := by
  refine List.all_eq_false.mpr ⟨e, by cases e <;> simp, ?_⟩
  simp [h, mayWait]

theorem servicedFrom_tclk_late {s : State} (hrun : s.run = true) (ts : List Turn) {a : Waits} (hmay : mayClock s a = false) :
    servicedFrom (entry .tclk :: ts) a s = false := by
  have hclock : isClock (entry .tclk) s = true := (isClock_entry .tclk s decode_encode_tclk).trans hrun
  rw [servicedFrom, hmay, hclock]
  rfl

/-- An event that has waited `k` clocks is late after as many more as bring it past the bound. -/
theorem servicedFrom_late {s : State} (hrun : s.run = true) {e : Event} (hpend : pending s e = true) {a : Waits} {k m : Nat}
    (hwait : a.get e = some k) (hlate : k + m = s.params.maxServiceLatency) (ts : List Turn) :
    servicedFrom (repeated .tclk (m + 1) ++ ts) a s = false := by
  induction m generalizing s a k with
  | zero => exact servicedFrom_tclk_late hrun _ (mayClock_of_waited (by rw [hwait, ← hlate, Nat.add_zero]))
  | succ m ih =>
    rw [repeated, List.replicate_succ, List.cons_append]
    cases hmay : mayClock s a with
    | false => exact servicedFrom_tclk_late hrun _ hmay
    | true =>
      rw [servicedFrom_tclk hrun _ hmay]
      have hpend' : pending (clockEffect s) e = true := pending_clockEffect hpend
      have hwait' : (nextWaits true (clockEffect s) a).get e = some (k + 1) := by
        rw [get_nextWaits, hwait, nextWait_some hpend']
        rfl
      have hlate' : k + 1 + m = s.params.maxServiceLatency := by omega
      exact ih (s := clockEffect s) hrun hpend' hwait' hlate'

/-- Settles O44: in a period each event is serviced by the entry after the clock that raised it; and the wait of an eligible event
grows with every clock until its flag falls. -/
theorem referencePeriodKeepsTheLatencyBound : Obligations.ReferencePeriodKeepsTheLatencyBound := by
  refine ⟨fun s n hs hswt => ?_, fun s e rest hrun he => ?_⟩
  · exact (servicedFrom_running _ _ s _).trans (servicedFrom_periods hs hswt n _)
  · have hpend : pending s e = true := pending_of_eligible he
    have hwait : (nextWaits false s noWaits).get e = some 0 := by
      rw [get_nextWaits]
      have hnone : noWaits.get e = none := by cases e <;> rfl
      simp [nextWait, hpend, he, hnone]
    exact (servicedFrom_running _ _ s _).trans (servicedFrom_late hrun hpend hwait (Nat.zero_add _) rest)

end Sys2Proof.Machine
end
